-- ==== Sys2Proof/Word.lean ====
section
/-! DEFINITION. The word types of the flash controller and their plainest arithmetic (spec 00_scope.md R9, R11, R12). -/

namespace Sys2Proof

/-- A byte of the array or of a host buffer (u8). -/
abbrev Byte := BitVec 8

/-- A half-word: the width of the capacity fuse (u16). -/
abbrev Half := BitVec 16

/-- A register, an offset, a count, a command word or a bus descriptor (u32, R9 and R11). -/
abbrev Word := BitVec 32

/-- The array storage: (offset, byte) pairs in one canonical form (Machine/Ops.lean says which). -/
abbrev Memory := List Host.Cell

end Sys2Proof
end

