-- ==== Sys2Proof/Config.lean ====
section
/-! DEFINITION. What an implementation fixes (the named parameters of 00_scope.md R10) and the free values (`draw()`,
92_eei_decisions.md D54). A constant declared `opaque` here has no body: no proof can learn its value. -/

namespace Sys2Proof

/-- What KEYR does with a bad key (`BAD_KEY_POLICY`, R10, R143, D21). -/
inductive BadKeyPolicy where
  /-- The wrong write is discarded and the sequence restarts. -/
  | ignore
  /-- No key sequence unlocks until reset. -/
  | lockUntilReset
deriving DecidableEq, Repr, Inhabited

/-- What an array write does while `CR.PG = 0` (`UNARMED_WRITE_POLICY`, R10, R152, D27). -/
inductive UnarmedWritePolicy where
  /-- Nothing is programmed; the status flags take a draw. -/
  | ignore
  /-- The write faults. -/
  | busFault
deriving DecidableEq, Repr, Inhabited

/-- The named parameters of R10. A value of this type is fixed for a machine: no step changes it. -/
structure Config where
  /-- `REG_BASE`, bus address of the register block (D5). -/
  regBase : Word
  /-- `FLASH_BASE`, bus address of page 0 (D6). -/
  flashBase : Word
  /-- `FUSE_ADDR`, bus address of the capacity half-word (D7). -/
  fuseAddr : Word
  /-- `FUSE_VALUE`, the capacity in kilobytes (R51, D7). -/
  fuseValue : Half
  /-- `KEY1`, the first unlock key (D8). -/
  key1 : Word
  /-- `KEY2`, the second unlock key (D8). -/
  key2 : Word
  /-- `ERASE_TIMEOUT`, a count of SR reads (D9). -/
  eraseTimeout : Word
  /-- `PROG_TIMEOUT`, a count of SR reads (D9). -/
  progTimeout : Word
  /-- `PAGE_SIZE` in bytes (D10). -/
  pageSize : Word
  /-- `ERASED_BYTE` (D11). -/
  erasedByte : Byte
  /-- `BAD_KEY_POLICY` (D21). -/
  badKeyPolicy : BadKeyPolicy
  /-- `UNARMED_WRITE_POLICY` (D27). -/
  unarmedWritePolicy : UnarmedWritePolicy
  /-- `WRP_PAGES`, the protected page indices (D33); only membership is read. -/
  wrpPages : List Nat
  /-- `INITIAL_ARRAY` (D42), written as the bytes that differ from `ERASED_BYTE`: the first pair with an offset gives
  its byte, an offset in no pair holds `ERASED_BYTE`. -/
  initialArray : List Host.Cell
deriving DecidableEq, Repr, Inhabited

/-- `ARRAY_SIZE = FUSE_VALUE * 1024` bytes (R10, D12). -/
def Config.arraySize (c : Config) : Nat := c.fuseValue.toNat * 1024

/-- `PAGE_SIZE` as a natural number. -/
def Config.page (c : Config) : Nat := c.pageSize.toNat

/-- Look an offset up in a list of (offset, byte) pairs; the first pair counts. -/
def cellAt (dflt : Byte) : List Host.Cell → Nat → Byte
  | [], _ => dflt
  | (k, b) :: rest, a => if a = k then b else cellAt dflt rest a

/-- The byte of `INITIAL_ARRAY` at an offset (R49). It is what an offset that `State.array` does not list reads as. -/
def Config.initialByte (c : Config) (o : Nat) : Byte := cellAt c.erasedByte c.initialArray o

/-- The constraints R10 puts on the parameters: `PAGE_SIZE > 0`, `PAGE_SIZE mod 8 = 0`,
`FLASH_BASE mod PAGE_SIZE = 0`, `FLASH_BASE + ARRAY_SIZE <= 2^32`, `KEY1 != KEY2`, `ERASED_BYTE = 0xFF`. -/
def Config.admissible (c : Config) : Bool :=
  decide (0 < c.page) && decide (c.page % 8 = 0) && decide (c.flashBase.toNat % c.page = 0) &&
  decide (c.flashBase.toNat + c.arraySize ≤ 2 ^ 32) && decide (c.key1 ≠ c.key2) && decide (c.erasedByte = 0xFF)

/-- `Config.admissible` as a proposition. -/
abbrev Config.Admissible (c : Config) : Prop := c.admissible = true

/-! ### The open parameters of the machine at reset -/

/-- Open parameter `REG_BASE` (D5). -/
opaque Config.openRegBase : Word
/-- Open parameter `FLASH_BASE` (D6), as the number of 2048-byte pages below it: every multiple of 2048 that leaves room
for 131072 bytes below 2^32, and nothing else, is `2048 * n` for such an `n`. -/
opaque Config.openFlashPage : Fin 2097089
/-- Open parameter `FUSE_ADDR` (D7). -/
opaque Config.openFuseAddr : Word
/-- Open parameter `KEY1` (D8). -/
opaque Config.openKey1 : Word
/-- Open parameter `KEY2` (D8), as its distance above `KEY1` less one: every key but `KEY1` is `KEY1 + 1 + n` for one
such `n`. -/
opaque Config.openKeyGap : Fin 4294967295
/-- Open parameter `ERASE_TIMEOUT` (D9). -/
opaque Config.openEraseTimeout : Word
/-- Open parameter `PROG_TIMEOUT` (D9). -/
opaque Config.openProgTimeout : Word
/-- Open parameter `BAD_KEY_POLICY` (D21). -/
opaque Config.openBadKeyPolicy : BadKeyPolicy
/-- Open parameter `UNARMED_WRITE_POLICY` (D27). -/
opaque Config.openUnarmedWritePolicy : UnarmedWritePolicy
/-- Open parameter `INITIAL_ARRAY` (D42). -/
opaque Config.openInitialArray : List Host.Cell

/-- The configuration of the machine at reset: the common configuration of 95_test_vectors.md section 0
(`FUSE_VALUE = 0x0080`, `PAGE_SIZE = 2048`, `ERASED_BYTE = 0xFF`, `WRP_PAGES = {}`), every other parameter open.
DESIGN CHOICE: unsafe for a claim about the reset machine's capacity, page size or protection (log entry 2). -/
def Config.atReset : Config where
  regBase := openRegBase
  flashBase := BitVec.ofNat 32 (2048 * openFlashPage.val)
  fuseAddr := openFuseAddr
  fuseValue := 0x0080
  key1 := openKey1
  key2 := openKey1 + 1 + BitVec.ofNat 32 openKeyGap.val
  eraseTimeout := openEraseTimeout
  progTimeout := openProgTimeout
  pageSize := 2048
  erasedByte := 0xFF
  badKeyPolicy := openBadKeyPolicy
  unarmedWritePolicy := openUnarmedWritePolicy
  wrpPages := []
  initialArray := openInitialArray

/-! ### The free values -/

/-- The free value `draw()` (D54): the n-th fresh draw. Nothing constrains it. A draw of a byte reads its bits 7 to 0, a
draw of a choice its bit 0, a draw of the status flags its bits 0 to 9 and 15. -/
opaque Config.freeWord : Nat → Word

end Sys2Proof
end

