-- ==== Sys2Proof/Syntax.lean ====
section
/-! DEFINITION. The instructions: one constructor per row of spec/opcode_table.json, the eight host commands of
30_encoding.md R105 and the thirteen bus transactions of R110, with the operands R106 and R109 give them. -/

namespace Sys2Proof

/-- The decoded commands (R106) and bus transactions (R110) of the flash controller. -/
inductive Instr where
  /-- INIT, command word 1 (R200). -/
  | init
  /-- UNLOCK, command word 2 (R201). -/
  | unlock
  /-- LOCK, command word 3 (R202). -/
  | lock
  /-- ERASE A, B: command word 4, `addr` the byte offset A, `pages` the page count B (R210). -/
  | erase (addr pages : Word)
  /-- WRITE A, DATA: command word 5, `data` is `none` for DATA = Absent (R220, R106). -/
  | write (addr : Word) (data : Option (List Byte))
  /-- READ A, B, BUFP: command word 6, `buffer` is `false` for BUFP = Absent (R230, R106). -/
  | read (addr length : Word) (buffer : Bool)
  /-- PAGESIZE, command word 7 (R231). -/
  | pageSize
  /-- CHIPSIZE, command word 8 (R232). -/
  | chipSize
  /-- SR_RD, descriptor 0x0800_0010 (R132). -/
  | srRd
  /-- SR_WR, descriptor 0x8800_0010, with the word written (R133). -/
  | srWr (value : Word)
  /-- CR_RD, descriptor 0x0800_0014 (R134). -/
  | crRd
  /-- CR_WR, descriptor 0x8800_0014, with the word written (R135, R136). -/
  | crWr (value : Word)
  /-- KEYR_WR, descriptor 0x8800_0008, with the key written (R142). -/
  | keyrWr (value : Word)
  /-- KEYR_RD, descriptor 0x0800_0008 (R144). -/
  | keyrRd
  /-- ACR_RD, descriptor 0x0800_0000 (R145). -/
  | acrRd
  /-- ACR_WR, descriptor 0x8800_0000, with the word written (R145). -/
  | acrWr (value : Word)
  /-- OPTR_RD, descriptor 0x0800_0020 (R145). -/
  | optrRd
  /-- OPTR_WR, descriptor 0x8800_0020, with the word written (R145). -/
  | optrWr (value : Word)
  /-- ARR_RD8, descriptor 0x1000_0000 with the byte offset in bits 25 to 0 (R147). -/
  | arrRd8 (offset : BitVec 26)
  /-- ARR_WR32, descriptor 0x9800_0000 with the byte offset in bits 25 to 0, and the word written (R150). -/
  | arrWr32 (offset : BitVec 26) (value : Word)
  /-- FUSE_RD16, descriptor 0x2400_0000 (R146). -/
  | fuseRd16
deriving DecidableEq, Repr

end Sys2Proof
end

