-- ==== Sys2Proof/WellFormed.lean ====
section
/-! DEFINITION. Which instructions the encoding admits (30_encoding.md R106): every operand is a fixed-width word but
the data of WRITE, whose length must be below 2^32. -/

namespace Sys2Proof

/-- The length of a host buffer is below 2^32 (R106, R11); an absent buffer has no length. -/
def dataFits : Option (List Byte) → Bool
  | none => true
  | some bytes => decide (bytes.length < 2 ^ 32)

/-- The instruction is one that R106 and R110 spell. -/
def Instr.wellFormed : Instr → Bool
  | .write _ data => dataFits data
  | .init | .unlock | .lock | .erase _ _ | .read _ _ _ | .pageSize | .chipSize => true
  | .srRd | .srWr _ | .crRd | .crWr _ | .keyrWr _ | .keyrRd => true
  | .acrRd | .acrWr _ | .optrRd | .optrWr _ => true
  | .arrRd8 _ | .arrWr32 _ _ | .fuseRd16 => true

/-- `Instr.wellFormed` as a proposition. -/
abbrev WellFormed (i : Instr) : Prop := i.wellFormed = true

end Sys2Proof
end

