-- ==== Sys2Proof/Decode.lean ====
section
/-! DEFINITION. The decoder and the encoder (30_encoding.md): the command word CMD32 (R104 to R107) and the bus
descriptor BUS32 (R109, R110), each with its operands. -/

namespace Sys2Proof

/-- A command as the host issues it: a CMD32 command word with the operand fields of R106. Operand fields that the word's
opcode does not list are ignored (R106). -/
structure CommandRequest where
  /-- The command word (R104). -/
  word : Word
  /-- Operand A. -/
  a : Word
  /-- Operand B. -/
  b : Word
  /-- Operand DATA; `none` is Absent. -/
  data : Option (List Byte)
  /-- Operand BUFP; `false` is Absent. -/
  buffer : Bool
deriving DecidableEq, Repr

/-- A bus transaction as the sequencer issues it: a BUS32 descriptor and the value a write carries (R109). -/
structure BusRequest where
  /-- The descriptor. -/
  word : Word
  /-- The data value of a write; ignored for a read. -/
  value : Word
deriving DecidableEq, Repr

/-- One encoded instruction, in the encoding of its level (R8). -/
inductive Request where
  /-- A command of the host (R104). -/
  | command (q : CommandRequest)
  /-- A bus transaction of the sequencer (R109). -/
  | bus (q : BusRequest)
deriving DecidableEq, Repr

/-- The word of an encoded instruction: the command word or the descriptor. -/
def Request.word : Request → Word
  | .command q => q.word
  | .bus q => q.word

/-- The encoding is BUS32. -/
def Request.isBus : Request → Bool
  | .command _ => false
  | .bus _ => true

/-- Why a word spells no instruction. -/
inductive Reject where
  /-- A reserved command word (R107). -/
  | reservedCommand
  /-- A descriptor that matches no row of R110 and is no aligned word access to a register offset (R131). -/
  | badTransaction
  /-- A word access to an aligned register offset that the source does not name (R44, R145). -/
  | unmodelledRegister
  /-- DATA of WRITE is 2^32 bytes or longer, which R106 does not admit. -/
  | dataTooLong
deriving DecidableEq, Repr

/-! ### BUS32 descriptors -/

/-- `SPACE` of the register block. -/
def spaceRegister : BitVec 2 := 0
/-- `SPACE` of the array. -/
def spaceArray : BitVec 2 := 1
/-- `SPACE` of the capacity fuse. -/
def spaceFuse : BitVec 2 := 2
/-- `WIDTH` of a byte. -/
def widthByte : BitVec 2 := 0
/-- `WIDTH` of a half-word. -/
def widthHalf : BitVec 2 := 1
/-- `WIDTH` of a word. -/
def widthWord : BitVec 2 := 2

/-- Lay out a descriptor (R109): bit 31 DIR (1 for a write), bit 30 zero, bits 29 to 28 SPACE, bits 27 to 26 WIDTH,
bits 25 to 0 OFFSET. -/
def descriptor (write : Bool) (space width : BitVec 2) (offset : BitVec 26) : Word :=
  (BitVec.ofBool write).setWidth 32 <<< 31 ||| space.setWidth 32 <<< 28 ||| width.setWidth 32 <<< 26 ||| offset.setWidth 32

/-- The descriptor of a word access to a register. -/
def registerDescriptor (write : Bool) (offset : BitVec 26) : Word := descriptor write spaceRegister widthWord offset

/-- The offset of ACR (R100). -/
def acrOffset : BitVec 26 := 0x00
/-- The offset of KEYR (R100). -/
def keyrOffset : BitVec 26 := 0x08
/-- The offset of SR (R100). -/
def srOffset : BitVec 26 := 0x10
/-- The offset of CR (R100). -/
def crOffset : BitVec 26 := 0x14
/-- The offset of OPTR (R100). -/
def optrOffset : BitVec 26 := 0x20

/-- `DIR` of a descriptor: bit 31. -/
def descriptorWrites (w : Word) : Bool := w.getLsbD 31
/-- The reserved bit 30 of a descriptor. -/
def descriptorReserved (w : Word) : Bool := w.getLsbD 30
/-- `SPACE` of a descriptor: bits 29 to 28. -/
def descriptorSpace (w : Word) : BitVec 2 := w.extractLsb' 28 2
/-- `WIDTH` of a descriptor: bits 27 to 26. -/
def descriptorWidth (w : Word) : BitVec 2 := w.extractLsb' 26 2
/-- `OFFSET` of a descriptor: bits 25 to 0. -/
def descriptorOffset (w : Word) : BitVec 26 := w.extractLsb' 0 26

/-- Read a register-space descriptor: whole words at offsets that are multiples of 4 (R77); an offset that R100 does not
name is an unmodelled register (R44, R145). -/
def decodeRegister (w value : Word) : Except Reject Instr :=
  let offset := descriptorOffset w
  let write := descriptorWrites w
  if descriptorWidth w ≠ widthWord then .error .badTransaction
  else if offset.toNat % 4 ≠ 0 then .error .badTransaction
  else if offset = srOffset then .ok (if write then .srWr value else .srRd)
  else if offset = crOffset then .ok (if write then .crWr value else .crRd)
  else if offset = keyrOffset then .ok (if write then .keyrWr value else .keyrRd)
  else if offset = acrOffset then .ok (if write then .acrWr value else .acrRd)
  else if offset = optrOffset then .ok (if write then .optrWr value else .optrRd)
  else .error .unmodelledRegister

/-- Read an array-space descriptor: byte reads and word writes only (R110). -/
def decodeArray (w value : Word) : Except Reject Instr :=
  if descriptorWrites w then
    if descriptorWidth w = widthWord then .ok (.arrWr32 (descriptorOffset w) value) else .error .badTransaction
  else
    if descriptorWidth w = widthByte then .ok (.arrRd8 (descriptorOffset w)) else .error .badTransaction

/-- Read a fuse-space descriptor: the half-word read at offset 0 only (R110). -/
def decodeFuse (w : Word) : Except Reject Instr :=
  if descriptorWrites w = false ∧ descriptorWidth w = widthHalf ∧ descriptorOffset w = 0 then .ok .fuseRd16
  else .error .badTransaction

/-- Read a BUS32 descriptor with the value a write carries (R109, R110, R131). -/
def decodeBus (w value : Word) : Except Reject Instr :=
  if descriptorReserved w then .error .badTransaction
  else if descriptorSpace w = spaceRegister then decodeRegister w value
  else if descriptorSpace w = spaceArray then decodeArray w value
  else if descriptorSpace w = spaceFuse then decodeFuse w
  else .error .badTransaction

/-! ### CMD32 command words -/

/-- Read a CMD32 command word with its operands (R104 to R107): bits 3 to 0 are the opcode, bits 31 to 4 must be 0. -/
def decodeCommand (q : CommandRequest) : Except Reject Instr :=
  if q.word.extractLsb' 4 28 ≠ 0 then .error .reservedCommand
  else if q.word.extractLsb' 0 4 = 0x1#4 then .ok .init
  else if q.word.extractLsb' 0 4 = 0x2#4 then .ok .unlock
  else if q.word.extractLsb' 0 4 = 0x3#4 then .ok .lock
  else if q.word.extractLsb' 0 4 = 0x4#4 then .ok (.erase q.a q.b)
  else if q.word.extractLsb' 0 4 = 0x5#4 then
    if dataFits q.data then .ok (.write q.a q.data) else .error .dataTooLong
  else if q.word.extractLsb' 0 4 = 0x6#4 then .ok (.read q.a q.b q.buffer)
  else if q.word.extractLsb' 0 4 = 0x7#4 then .ok .pageSize
  else if q.word.extractLsb' 0 4 = 0x8#4 then .ok .chipSize
  else .error .reservedCommand

/-- Decode an encoded instruction in its own encoding. -/
def decode : Request → Except Reject Instr
  | .command q => decodeCommand q
  | .bus q => decodeBus q.word q.value

/-! ### The encoder -/

/-- A command word whose operands are all zero: a zero pointer is an absent buffer (D37). -/
def CommandRequest.bare (word : Word) : CommandRequest := { word := word, a := 0, b := 0, data := none, buffer := false }

/-- Encode an instruction: its word (R105, R110) and its operands (R106, R109). -/
def encode : Instr → Request
  | .init => .command (.bare 0x1)
  | .unlock => .command (.bare 0x2)
  | .lock => .command (.bare 0x3)
  | .erase addr pages => .command { CommandRequest.bare 0x4 with a := addr, b := pages }
  | .write addr data => .command { CommandRequest.bare 0x5 with a := addr, data := data }
  | .read addr length buffer => .command { CommandRequest.bare 0x6 with a := addr, b := length, buffer := buffer }
  | .pageSize => .command (.bare 0x7)
  | .chipSize => .command (.bare 0x8)
  | .srRd => .bus ⟨registerDescriptor false srOffset, 0⟩
  | .srWr v => .bus ⟨registerDescriptor true srOffset, v⟩
  | .crRd => .bus ⟨registerDescriptor false crOffset, 0⟩
  | .crWr v => .bus ⟨registerDescriptor true crOffset, v⟩
  | .keyrWr v => .bus ⟨registerDescriptor true keyrOffset, v⟩
  | .keyrRd => .bus ⟨registerDescriptor false keyrOffset, 0⟩
  | .acrRd => .bus ⟨registerDescriptor false acrOffset, 0⟩
  | .acrWr v => .bus ⟨registerDescriptor true acrOffset, v⟩
  | .optrRd => .bus ⟨registerDescriptor false optrOffset, 0⟩
  | .optrWr v => .bus ⟨registerDescriptor true optrOffset, v⟩
  | .arrRd8 o => .bus ⟨descriptor false spaceArray widthByte o, 0⟩
  | .arrWr32 o v => .bus ⟨descriptor true spaceArray widthWord o, v⟩
  | .fuseRd16 => .bus ⟨descriptor false spaceFuse widthHalf 0, 0⟩

/-! ### Words of the opcode table -/

/-- The encoded instruction that a word of spec/opcode_table.json stands for: a word whose bits 31 to 4 are 0 has the CMD32 form
(R104), every descriptor of R110 has one of them set; the operands are zero. -/
def Request.ofTableWord (w : Nat) : Request :=
  if w < 16 then .command (.bare (BitVec.ofNat 32 w)) else .bus ⟨BitVec.ofNat 32 w, 0⟩

/-- The instruction the decoder reads from a table word of `nbits` bits; the table's words have 32. -/
def decodeTableWord (nbits w : Nat) : Option Instr :=
  if nbits = 32 ∧ w < 2 ^ 32 then
    match decode (.ofTableWord w) with
    | .ok i => some i
    | .error _ => none
  else none

end Sys2Proof
end

