-- ==== Sys2Proof/Machine/State.lean ====
section
/-! DEFINITION. The state of the flash controller (10_state.md R30), its reset (R62), and the reasons a step can stop. -/

namespace Sys2Proof.Machine

/-- `KEYSTAGE`, the stage of the two-phase handshake (R45). -/
inductive KeyStage where
  /-- The next key write is compared with `KEY1`. -/
  | expect1
  /-- `KEY1` has been written; the next key write is compared with `KEY2`. -/
  | expect2
  /-- A bad sequence has disabled unlocking until reset. -/
  | frozen
deriving DecidableEq, Repr

/-- The low word of a double-word waiting for its high word (`LATCH`, R46): its array offset and its value. -/
structure Latch where
  /-- The array offset of the low word. -/
  offset : Nat
  /-- The low word. -/
  word : Word
deriving DecidableEq, Repr

/-- `OP`, the in-flight operation of the flash FSM (R47). -/
inductive Op where
  /-- No operation is in flight. -/
  | none
  /-- An erase of a page. -/
  | erase (page : BitVec 6)
  /-- A program of the double-word at an array offset with a low and a high word. -/
  | program (offset : Nat) (lo hi : Word)
deriving DecidableEq, Repr

/-- The decoded command of a running sequencer (R53, R106). -/
inductive Command where
  /-- `Init`. -/
  | init
  /-- `Unlock`. -/
  | unlock
  /-- `Lock`. -/
  | lock
  /-- `Erase(A, B)`. -/
  | erase (a b : Word)
  /-- `Write(A, DATA)`. -/
  | write (a : Word) (data : Option (List Byte))
  /-- `Read(A, B, BUFP)`. -/
  | read (a b : Word) (buffer : Bool)
  /-- `PageSize`. -/
  | pageSize
  /-- `ChipSize`. -/
  | chipSize
deriving DecidableEq, Repr

/-- The status of a response (R108, R240). -/
inductive Status where
  /-- `OK`. -/
  | ok
  /-- `INVALID_ARGUMENT`. -/
  | invalidArgument
  /-- `TIMEOUT`. -/
  | timeout
deriving DecidableEq, Repr

/-- A response `(STATUS, VALUE, DATA)` (R108). -/
structure Response where
  /-- `STATUS`. -/
  status : Status
  /-- `VALUE`. -/
  value : Word
  /-- `DATA`. -/
  data : List Byte
deriving DecidableEq, Repr

/-- The sequencer's working registers (R55), and `r`, the poll's result that the pseudocode of R210 and R220 keeps. -/
structure Regs where
  /-- The offset operand. -/
  a : Word
  /-- The page count or the length. -/
  n : Word
  /-- The page-floored start. -/
  rs : Word
  /-- The current page index. -/
  p : Word
  /-- The current double-word index. -/
  u : Word
  /-- The poll counter: the number of the poll's last SR read, from 1. -/
  k : Word
  /-- The assembled low word. -/
  lo : Word
  /-- The assembled high word. -/
  hi : Word
  /-- The last CR image read. -/
  c : Word
  /-- The last SR image read. -/
  s : Word
  /-- The read result being assembled. -/
  buf : List Byte
  /-- The poll's result: `true` for Expired, `false` for Done. -/
  r : Bool
deriving DecidableEq, Repr

/-- Which bus transaction of the command's sequence comes next (files 41 to 45): with the position of R56 it says where
the sequencer is. The local computations before that transaction are still to be made: they are part of the step that
performs it (R172). -/
inductive Phase where
  /-- The command's first transaction, or its response if it issues none; which one is still to be computed. -/
  | first
  /-- The SR_RD of BUSY_CHECK (R179). -/
  | busy
  /-- The CLEAR_STATUS that begins page `unit` of ERASE or double-word `unit` of WRITE (R210 step 1, R220 step 2). -/
  | clearBefore (unit : Nat)
  /-- The CR_RD before an operation is started. -/
  | modeRead
  /-- The CR_WR that starts the erase (R210 step 2) or sets PG (R220 step 2). -/
  | modeWrite
  /-- The ARR_WR32 of the low word (R220 step 3). -/
  | lowWord
  /-- The ARR_WR32 of the high word (R220 step 3). -/
  | highWord
  /-- The `k`-th SR_RD of POLL, counted from 1 (R177). -/
  | poll (k : Nat)
  /-- The CLEAR_STATUS after the poll (R210 step 4, R220 step 5). -/
  | clearAfter
  /-- The CR_RD of CR_CLEAR. -/
  | cleanupRead
  /-- The CR_WR of CR_CLEAR. -/
  | cleanupWrite
  /-- The KEYR_WR of KEY2 (R201). -/
  | secondKey
  /-- The CR_WR of LOCK (R202). -/
  | lockWrite
  /-- The ARR_RD8 of the byte after those that `buf` holds (R230). -/
  | byteRead
deriving DecidableEq, Repr

/-- A running command: `Running(cmd, pos, regs)` of R53, with the next transaction named. -/
structure Run where
  /-- The decoded command. -/
  cmd : Command
  /-- The index of the next bus transaction (R56). -/
  pos : Nat
  /-- Which transaction that is. -/
  phase : Phase
  /-- The working registers. -/
  regs : Regs
deriving DecidableEq, Repr

/-- `SEQ` (R53). -/
inductive Seq where
  /-- The sequencer waits for a command. -/
  | idle
  /-- The sequencer runs a command. -/
  | running (run : Run)
deriving DecidableEq, Repr

/-- An entry of `HISTORY` (R58). -/
inductive Event where
  /-- A bus transaction: its descriptor, its offset, and the value written or returned; `none` for a read that was refused
  and so returned nothing. -/
  | bus (descriptor : Word) (offset : Nat) (value : Option Word)
  /-- A completion step of the flash FSM, with the operation it completed. -/
  | completion (op : Op)
deriving DecidableEq, Repr

/-- A fault record, `BusFault(o, w)` (R60, R152). -/
structure FaultRecord where
  /-- The array offset written. -/
  offset : Nat
  /-- The word written. -/
  word : Word
deriving DecidableEq, Repr

/-- The refusal reasons of R245, what `REFUSED` records (R61). Every one is safe: the model stops where the spec says that
the source gives no meaning. -/
inductive RefuseReason where
  /-- A reserved command word (R107); raised by the fetch. Safe. -/
  | reservedCommand
  /-- ERASE of a page above 63 (R213); raised by ERASE. Safe. -/
  | pageIndexWidth
  /-- A descriptor that is not in the table (R131); raised by the fetch. Safe. -/
  | badTransaction
  /-- ACR, OPTR or an unnamed register offset (R145); raised by ACR_RD, ACR_WR, OPTR_RD, OPTR_WR and the fetch. Safe. -/
  | unmodelledRegister
  /-- A start with PG and PER both 1 (R139); raised by CR_WR. Safe. -/
  | bothModes
  /-- An erase start of a page that is not whole (R162); raised by CR_WR. Safe. -/
  | eraseOutsideArray
  /-- An array access outside the array or misaligned (R149, R154); raised by ARR_RD8 and ARR_WR32. Safe. -/
  | arrayRange
  /-- A program word while locked or busy with PG = 1 (R153); raised by ARR_WR32. Safe. -/
  | armedButBlocked
  /-- A high word without its low word (R153); raised by ARR_WR32. Safe. -/
  | unpairedHighWord
deriving DecidableEq, Repr

/-- The state of the block (R30) with its configuration, and the model's own input fields: what the host is going to issue
and what the draws are going to answer. `SR.BSY` and `CR.STRT` are functions of `op` (R35, R40). -/
structure State where
  /-- The configuration (R10): no step changes it. -/
  cfg : Config
  /-- `SR.FLAGS` (R33): bits 0 to 9 of SR in bits 0 to 9, bit 15 of SR in bit 10. -/
  flags : BitVec 11
  /-- `CR.PG` (R37). -/
  pg : Bool
  /-- `CR.PER` (R38). -/
  per : Bool
  /-- `CR.PNB` (R39). -/
  pnb : BitVec 6
  /-- `CR.LOCK` (R41). -/
  lock : Bool
  /-- `KEYSTAGE` (R45). -/
  keyStage : KeyStage
  /-- `LATCH` (R46). -/
  latch : Option Latch
  /-- `OP` (R47). -/
  op : Op
  /-- `ABORTED` (R47). -/
  aborted : Bool
  /-- `ARRAY` (R49): the bytes that differ from `INITIAL_ARRAY`. -/
  array : Memory
  /-- `CHIP_SIZE_CACHE` (R52). -/
  chipSizeCache : Word
  /-- `SEQ` (R53, R55, R56). -/
  seq : Seq
  /-- `RESP` (R57). -/
  resp : Option Response
  /-- `HISTORY` (R58), oldest first. -/
  history : List Event
  /-- `FAULT` (R60). -/
  fault : Option FaultRecord
  /-- `REFUSED` (R61). -/
  refused : Option RefuseReason
  /-- The model's own: the commands the host is still to issue, the next one first (R112: "a list of commands executed in
  order, each after the previous one's response"). The host issues commands and nothing else (R70, R258). -/
  requests : List CommandRequest
  /-- The model's own test port: a bus transaction that the idle sequencer issues outside any command, if there is one. No
  agent of R7 puts one here and neither does any step; `withFetchWord` alone does, for the bus rows of the opcode table. -/
  busProbe : Option BusRequest
  /-- The model's own: the draws already fixed from outside, the next one first. Any list is admitted. -/
  inputs : List Word
  /-- The model's own: how many draws have been taken from the free values. -/
  drawn : Nat
deriving DecidableEq, Repr

/-- Why the machine stops with a fault. -/
inductive Fault where
  /-- `FAULT = BusFault(o, w)` is recorded (R60): raised by ARR_WR32 with PG = 0 under the BusFault policy (R152), by a
  WRITE whose word meets it (R222), and by every step after it. `final` is the state with the record. Safe: the spec says the
  machine takes no further step. -/
  | busFault (offset : Nat) (word : Word) (final : State)
deriving DecidableEq, Repr

/-- Why the machine gives an instruction no meaning. -/
inductive Refusal where
  /-- The instruction has no meaning in the model yet; raised by `exec` alone. Safe. -/
  | notModelled (mnemonic : String)
  /-- `REFUSED` is recorded (R61): raised by the transaction, command or fetch that `RefuseReason` names, and by every
  step after it. `final` is the state with the record. Safe: the spec says the machine takes no further step. -/
  | recorded (reason : RefuseReason) (final : State)
  /-- A command is given while another runs: raised by `exec` of a command in a state whose sequencer is not idle, where
  the host has no move (R170, R257). Safe. -/
  | commandWhileRunning
  /-- DATA of WRITE is 2^32 bytes or longer, which no command spells (R106): raised by the fetch. Safe. -/
  | dataTooLong
deriving DecidableEq, Repr

/-- The machine right after reset at the start of a run (R62, R270), in the configuration of `Config.atReset`, with no
command issued, nothing at the test port and no fixed draw. -/
def State.reset : State where
  cfg := Config.atReset
  flags := 0
  pg := false
  per := false
  pnb := 0
  lock := true
  keyStage := .expect1
  latch := none
  op := .none
  aborted := false
  array := []
  chipSizeCache := 0
  seq := .idle
  resp := none
  history := []
  fault := none
  refused := none
  requests := []
  busProbe := none
  inputs := []
  drawn := 0

end Sys2Proof.Machine
end

