-- ==== Sys2Proof/Machine/Ops.lean ====
section
/-! DEFINITION. The named operations over memory, draws, history, records and responses. The block has no trap: an error is
a response, and what stands where other hardware takes an exception is `State.respond` (60_exceptions.md R249, R250),
`State.recordFault` and `State.refuse` (R16, R245). -/

namespace Sys2Proof.Machine

/-! ### Memory: (offset, byte) pairs, offsets strictly rising, no pair equal to what an unlisted offset reads as -/

/-- The byte at an offset; `base` gives the byte of an unlisted offset. -/
def memRead (base : Nat → Byte) : Memory → Nat → Byte
  | [], a => base a
  | (k, b) :: rest, a => if a = k then b else memRead base rest a

/-- Put one byte, keeping the canonical form: writing what an unlisted offset reads as removes the entry. -/
def memWrite (base : Nat → Byte) : Memory → Nat → Byte → Memory
  | [], a, b => if b = base a then [] else [(a, b)]
  | (k, v) :: rest, a, b =>
    if a < k then (if b = base a then (k, v) :: rest else (a, b) :: (k, v) :: rest)
    else if a = k then (if b = base a then rest else (a, b) :: rest)
    else (k, v) :: memWrite base rest a b

/-- Put bytes at ascending offsets. -/
def memWriteBytes (base : Nat → Byte) : Memory → Nat → List Byte → Memory
  | m, _, [] => m
  | m, a, b :: bytes => memWriteBytes base (memWrite base m a b) (a + 1) bytes

/-- The pairs' offsets are at least `lo`, strictly rising, and no pair holds what an unlisted offset reads as. -/
def Memory.wfFrom (base : Nat → Byte) : Nat → Memory → Bool
  | _, [] => true
  | lo, (k, b) :: rest => decide (lo ≤ k) && decide (b ≠ base k) && Memory.wfFrom base (k + 1) rest

/-- The canonical form. -/
def Memory.wf (base : Nat → Byte) (m : Memory) : Bool := Memory.wfFrom base 0 m

/-- `ARRAY[o]` (R49). -/
def State.byteAt (s : State) (o : Nat) : Byte := memRead s.cfg.initialByte s.array o

/-- Replace the array bytes from an offset on. -/
def State.putBytes (s : State) (o : Nat) (bytes : List Byte) : State :=
  { s with array := memWriteBytes s.cfg.initialByte s.array o bytes }

/-! ### Draws -/

/-- The k-th draw from here (D54): fixed from outside as far as `inputs` reaches, a free value beyond. -/
def State.drawAt (s : State) (k : Nat) : Word :=
  match s.inputs[k]? with
  | some v => v
  | none => Config.freeWord (s.drawn + (k - s.inputs.length))

/-- The state after n draws. -/
def State.afterDraws (n : Nat) (s : State) : State :=
  { s with inputs := s.inputs.drop n, drawn := s.drawn + (n - s.inputs.length) }

/-- A draw of one of two outcomes. -/
def drawBit (w : Word) : Bool := w.getLsbD 0

/-- `draw_8()`. -/
def drawByte (w : Word) : Byte := w.setWidth 8

/-- n bytes, each a draw of its own, from the k-th draw on. -/
def State.drawBytes (s : State) : Nat → Nat → List Byte
  | _, 0 => []
  | k, n + 1 => drawByte (s.drawAt k) :: s.drawBytes (k + 1) n

/-! ### Records and outcomes -/

/-- No fault and no refusal is recorded (R130). -/
def State.live (s : State) : Bool := s.fault.isNone && s.refused.isNone

/-- Append an event to `HISTORY` (R58). -/
def State.log (e : Event) (s : State) : State := { s with history := s.history ++ [e] }

/-- Record `REFUSED` (R16, R61). -/
def State.refuse (why : RefuseReason) (s : State) : State := { s with refused := some why }

/-- Record `FAULT <- BusFault(o, w)` (R16, R60). -/
def State.recordFault (offset : Nat) (word : Word) (s : State) : State :=
  { s with fault := some { offset := offset, word := word } }

/-- The outcome a state stands for: a recorded fault or refusal stops the machine with that state (R182). -/
def outcome (s : State) : Host.Outcome State Fault Refusal :=
  match s.fault with
  | some f => .fault (.busFault f.offset f.word s)
  | none =>
    match s.refused with
    | some why => .refused (.recorded why s)
    | none => .next s

/-! ### Ending a command -/

/-- The u32 code of a status (R108, R240). -/
def Status.code : Status → Word
  | .ok => 0
  | .invalidArgument => 1
  | .timeout => 2

/-- `respond(status, value, data)`: the response is handed to the host and the sequencer is idle, in one step (R181). -/
def State.respond (status : Status) (value : Word) (data : List Byte) (s : State) : State :=
  { s with resp := some { status := status, value := value, data := data }, seq := .idle }

/-- `raise InvalidArgument` (R16). -/
def State.raiseInvalidArgument (s : State) : State := s.respond .invalidArgument 0 []

/-- `raise Timeout` (R16). -/
def State.raiseTimeout (s : State) : State := s.respond .timeout 0 []

/-! ### Bus addresses -/

/-- The bus address of an offset of the array: `FLASH_BASE + o`, with no translation and no wrap (R71). -/
def arrayAddress (c : Config) (o : Nat) : Nat := c.flashBase.toNat + o

/-- The bus address of a register: `REG_BASE + off` (R15). -/
def registerAddress (c : Config) (offset : BitVec 26) : Nat := c.regBase.toNat + offset.toNat

/-- The bus address of the capacity half-word (R15, R51). -/
def fuseAddress (c : Config) : Nat := c.fuseAddr.toNat

end Sys2Proof.Machine
end

