-- ==== Sys2Proof/Machine/Flags.lean ====
section
/-! DEFINITION. The status flags and the register images of SR and CR (10_state.md R33 to R41, 30_encoding.md R101, R102). -/

namespace Sys2Proof.Machine

/-- `SR_CLEAR`, the all-ones clear pattern (R9, R101). -/
def srClear : Word := 0x000083FF
/-- `SR_BSY`, bit 16 (R101). -/
def srBsy : Word := 0x00010000
/-- The defined bits of SR (R101). -/
def srDefined : Word := 0x000183FF
/-- `CR_PG`, bit 0 (R102). -/
def crPg : Word := 0x00000001
/-- `CR_PER`, bit 1 (R102). -/
def crPer : Word := 0x00000002
/-- `CR_PNB_MASK`, bits 3 to 8 (R102). -/
def crPnbMask : Word := 0x000001F8
/-- `CR_STRT`, bit 16 (R102). -/
def crStrt : Word := 0x00010000
/-- `CR_LOCK`, bit 31 (R102). -/
def crLock : Word := 0x80000000
/-- The defined bits of CR (R102). -/
def crDefined : Word := 0x800101FB

/-- The status flags named by a word: its bits 0 to 9 and its bit 15 (R33). -/
def flagsOfWord (w : Word) : BitVec 11 :=
  (w.extractLsb' 15 1).setWidth 11 <<< 10 ||| (w.extractLsb' 0 10).setWidth 11

/-- The status flags at their places in SR (R33). -/
def wordOfFlags (f : BitVec 11) : Word :=
  (f.extractLsb' 10 1).setWidth 32 <<< 15 ||| (f.extractLsb' 0 10).setWidth 32

/-- Write-one-to-clear (R133). -/
def clearFlags (f : BitVec 11) (v : Word) : BitVec 11 := f &&& ~~~ flagsOfWord v

/-- A draw of the status flags: any subset of {0..9, 15} (R152, R161). -/
def drawFlags (w : Word) : BitVec 11 := flagsOfWord w

/-- `SR.BSY` (R35). -/
def State.bsy (s : State) : Bool := decide (s.op ≠ .none)

/-- An erase is in flight. -/
def Op.isErase : Op → Bool
  | .erase _ => true
  | .none => false
  | .program _ _ _ => false

/-- A program is in flight. -/
def Op.isProgram : Op → Bool
  | .program _ _ _ => true
  | .none => false
  | .erase _ => false

/-- `CR.STRT` (R40). -/
def State.strt (s : State) : Bool := s.op.isErase

/-- A mask if a bit is set, else no bit. -/
def maskIf (b : Bool) (mask : Word) : Word := if b then mask else 0

/-- The word SR reads as (R132). -/
def State.srWord (s : State) : Word := wordOfFlags s.flags ||| maskIf s.bsy srBsy

/-- The word CR reads as (R102, R134). -/
def State.crWord (s : State) : Word :=
  maskIf s.lock crLock ||| maskIf s.strt crStrt ||| s.pnb.setWidth 32 <<< 3 ||| maskIf s.per crPer ||| maskIf s.pg crPg

/-- The page index field of a CR word, bits 3 to 8 (R36). -/
def crPageIndex (v : Word) : BitVec 6 := v.extractLsb' 3 6

end Sys2Proof.Machine
end

