-- ==== Sys2Proof/Machine/Operands.lean ====
section
/-! DEFINITION. The operand values the sequencer assembles (30_encoding.md R103, R111) and the bounds predicate
(41_sequencer.md R180). -/

namespace Sys2Proof.Machine

/-- `erase_cr(c, p)`: the CR value that starts the erase of page p, from the CR image just read (R103). -/
def eraseCr (c p : Word) : Word := (c &&& ~~~ crPnbMask) ||| crPer ||| p <<< 3 ||| crStrt

/-- The page-floored start (R111). -/
def pageFloor (c : Config) (a : Nat) : Nat := a / c.page * c.page

/-- `ceil8(n)` (R13). -/
def ceil8 (n : Nat) : Nat := (n + 7) / 8 * 8

/-- The number of double-words of n bytes (R220). -/
def doubleWords (n : Nat) : Nat := ceil8 n / 8

/-- `IN_RANGE(o, len)` with `cs` the cached chip size, in exact arithmetic (R180). -/
def inRange (cs o len : Nat) : Bool := decide (o < cs) && decide (o + len ≤ cs)

/-- The chip size of a fuse value: `zext_32(v) * 1024` (R111, R174). -/
def chipSizeOf (v : Half) : Word := v.setWidth 32 * 1024

/-- One word from its four bytes, the first least significant (R111). -/
def wordOfBytes (b0 b1 b2 b3 : Byte) : Word :=
  b0.setWidth 32 ||| b1.setWidth 32 <<< 8 ||| b2.setWidth 32 <<< 16 ||| b3.setWidth 32 <<< 24

/-- The word of the bytes from the j-th on; a byte that is not there counts as 0 (the sequencer always gives eight). -/
def wordAt (bytes : List Byte) (j : Nat) : Word :=
  wordOfBytes (bytes.getD j 0) (bytes.getD (j + 1) 0) (bytes.getD (j + 2) 0) (bytes.getD (j + 3) 0)

/-- The four bytes of a word, the least significant first: how a programmed word lies in the array (R73, R157). -/
def bytesOfWord (w : Word) : List Byte :=
  [w.extractLsb' 0 8, w.extractLsb' 8 8, w.extractLsb' 16 8, w.extractLsb' 24 8]

/-- The data bytes of double-word u: eight, or fewer at the end of the data (R220). -/
def dataChunk (data : List Byte) (u : Nat) : List Byte := (data.drop (8 * u)).take 8

/-- How many pad bytes double-word u needs (R221). -/
def padCount (data : List Byte) (u : Nat) : Nat := 8 - (dataChunk data u).length

/-- The eight bytes of double-word u: its data bytes, then pad bytes, each a draw (R220, R221). -/
def State.doubleWordBytes (s : State) (data : List Byte) (u : Nat) : List Byte :=
  dataChunk data u ++ s.drawBytes 0 (padCount data u)

end Sys2Proof.Machine
end

