-- ==== Sys2Proof/Machine/Bus.lean ====
section
/-! DEFINITION. The bus transactions (40_register_bus.md R130 to R154, R162): with the completion step of Machine/Fsm.lean
they are the only operations that change the hardware state. Each `…Effect` is what the rule's pseudocode does; each
`bus…` is the whole transaction, its `HISTORY` entry included (R130). -/

namespace Sys2Proof.Machine

/-! ### HISTORY entries -/

/-- Append a register transaction (R58, R130). -/
def State.logRegister (write : Bool) (offset : BitVec 26) (value : Option Word) (s : State) : State :=
  s.log (.bus (registerDescriptor write offset) offset.toNat value)

/-- Append an array read (R58, R130). -/
def State.logArrayRead (o : Nat) (value : Option Word) (s : State) : State :=
  s.log (.bus (descriptor false spaceArray widthByte (BitVec.ofNat 26 o)) o value)

/-- Append an array write (R58, R130). -/
def State.logArrayWrite (o : Nat) (w : Word) (s : State) : State :=
  s.log (.bus (descriptor true spaceArray widthWord (BitVec.ofNat 26 o)) o (some w))

/-! ### SR -/

/-- SR_RD: nothing changes; it returns `srWord` (R132). -/
def busSrRead (s : State) : State := s.logRegister false srOffset (some s.srWord)

/-- SR_WR: write-one-to-clear on the status flags; every other bit is ignored (R133). -/
def busSrWrite (v : Word) (s : State) : State :=
  { s.logRegister true srOffset (some v) with flags := clearFlags s.flags v }

/-! ### CR -/

/-- CR_RD: nothing changes; it returns `crWord` (R134). -/
def busCrRead (s : State) : State := s.logRegister false crOffset (some s.crWord)

/-- ABORT_CHECK: the CR write clears the mode bit of the operation in flight (R137). -/
def abortCheck (v : Word) (s : State) : Bool :=
  (s.op.isErase && s.per && !v.getLsbD 1) || (s.op.isProgram && s.pg && !v.getLsbD 0)

/-- The fields a CR write takes while unlocked, in the order of R136 up to the latch. -/
def crFields (v : Word) (s : State) : State :=
  { s with
    aborted := s.aborted || abortCheck v s
    pg := v.getLsbD 0
    per := v.getLsbD 1
    pnb := crPageIndex v
    latch := if v.getLsbD 0 then s.latch else none }

/-- Whether an operation that is started starts: always while no status flag is set, else as a draw (R140). -/
def State.startDraw (s : State) : Bool := decide (s.flags = 0) || drawBit (s.drawAt 0)

/-- The state after the draw of R140, if there is one. -/
def State.afterStartDraw (s : State) : State := if s.flags = 0 then s else s.afterDraws 1

/-- An operation goes in flight; `SR.BSY` reads 1 from here on (R138, R151). -/
def State.begin (op : Op) (s : State) : State := { s with op := op, aborted := false }

/-- START_ERASE(CR.PNB) (R138, R140, R162). -/
def startErase (s : State) : State :=
  if (s.pnb.toNat + 1) * s.cfg.page > s.cfg.arraySize then s.refuse .eraseOutsideArray
  else if s.startDraw then s.afterStartDraw.begin (.erase s.pnb)
  else s.afterStartDraw

/-- START_CHECK(v): STRT was written 1 (R138, R139). -/
def startCheck (v : Word) (s : State) : State :=
  if s.op ≠ .none then s
  else if v.getLsbD 31 then s
  else if s.per then (if s.pg then s.refuse .bothModes else startErase s)
  else s

/-- SET_LOCK(), if bit 31 was written 1; a 0 there does not clear LOCK (R136, R141). -/
def setLockIf (v : Word) (s : State) : State := { s with lock := s.lock || v.getLsbD 31 }

/-- A CR write while `CR.LOCK = 0` (R136). -/
def crWriteUnlocked (v : Word) (s : State) : State :=
  setLockIf v (if v.getLsbD 16 then startCheck v (crFields v s) else crFields v s)

/-- A CR write: ignored entirely while `CR.LOCK = 1` (R135, R136). -/
def crWriteEffect (v : Word) (s : State) : State := if s.lock then s else crWriteUnlocked v s

/-- CR_WR (R135, R136). -/
def busCrWrite (v : Word) (s : State) : State := crWriteEffect v (s.logRegister true crOffset (some v))

/-! ### KEYR -/

/-- The stage a bad key leaves (BAD_KEY, R143). -/
def badKeyStage (c : Config) : KeyStage :=
  match c.badKeyPolicy with
  | .ignore => .expect1
  | .lockUntilReset => .frozen

/-- The stage after a key write while locked (R142). -/
def nextKeyStage (v : Word) (s : State) : KeyStage :=
  match s.keyStage with
  | .frozen => .frozen
  | .expect1 => if v = s.cfg.key1 then .expect2 else badKeyStage s.cfg
  | .expect2 => if v = s.cfg.key2 then .expect1 else badKeyStage s.cfg

/-- The key write that unlocks: KEY2 in stage Expect2 (R142). -/
def keyUnlocks (v : Word) (s : State) : Bool :=
  match s.keyStage with
  | .expect2 => decide (v = s.cfg.key2)
  | .expect1 => false
  | .frozen => false

/-- KEYR_WR: ignored while unlocked, else one step of the handshake (R142, R143). -/
def busKeyWrite (v : Word) (s : State) : State :=
  { s.logRegister true keyrOffset (some v) with
    keyStage := if s.lock then nextKeyStage v s else s.keyStage
    lock := s.lock && !keyUnlocks v s }

/-- KEYR_RD: returns a draw and changes nothing (R144). -/
def busKeyRead (s : State) : State := (s.logRegister false keyrOffset (some (s.drawAt 0))).afterDraws 1

/-! ### Registers the model does not hold -/

/-- A read of a register the model does not hold: refused (R145). -/
def busUnmodelledRead (offset : BitVec 26) (s : State) : State :=
  (s.logRegister false offset none).refuse .unmodelledRegister

/-- A write of a register the model does not hold: refused (R145). -/
def busUnmodelledWrite (offset : BitVec 26) (v : Word) (s : State) : State :=
  (s.logRegister true offset (some v)).refuse .unmodelledRegister

/-! ### Fuse -/

/-- FUSE_RD16: returns `FUSE_VALUE` and changes nothing (R146). -/
def busFuseRead (s : State) : State :=
  s.log (.bus (descriptor false spaceFuse widthHalf 0) 0 (some (s.cfg.fuseValue.setWidth 32)))

/-! ### Array -/

/-- What an array read inside the array returns: the byte when idle (R147), a draw while an operation is in flight (R148). -/
def State.arrayValue (s : State) (o : Nat) : Byte :=
  match s.op with
  | .none => s.byteAt o
  | .erase _ => drawByte (s.drawAt 0)
  | .program _ _ _ => drawByte (s.drawAt 0)

/-- The state after the draw of R148, if there is one. -/
def State.afterReadDraw (s : State) : State :=
  match s.op with
  | .none => s
  | .erase _ => s.afterDraws 1
  | .program _ _ _ => s.afterDraws 1

/-- ARR_RD8 at an offset (R147, R148, R149). -/
def busArrayRead (o : Nat) (s : State) : State :=
  if o < s.cfg.arraySize then (s.logArrayRead o (some ((s.arrayValue o).setWidth 32))).afterReadDraw
  else (s.logArrayRead o none).refuse .arrayRange

/-- UNARMED(o, w): an array write while `CR.PG = 0` (R152). -/
def unarmedWrite (o : Nat) (w : Word) (s : State) : State :=
  match s.cfg.unarmedWritePolicy with
  | .ignore => { s.afterDraws 1 with flags := drawFlags (s.drawAt 0) }
  | .busFault => s.recordFault o w

/-- START_PROGRAM(o, lo, hi): the latch is cleared whether or not the operation starts (R151, R140). -/
def startProgram (o : Nat) (lo hi : Word) (s : State) : State :=
  if s.startDraw then { s.afterStartDraw.begin (.program o lo hi) with latch := none }
  else { s.afterStartDraw with latch := none }

/-- The high word at offset o: it starts the program if the low word at o - 4 is latched (R150, R151, R153). -/
def highWordWrite (o : Nat) (w : Word) (s : State) : State :=
  match s.latch with
  | some l => if l.offset + 4 = o then startProgram l.offset l.word w s else s.refuse .unpairedHighWord
  | none => s.refuse .unpairedHighWord

/-- ARR_WRITE(o, w) (R150). -/
def arrayWriteEffect (o : Nat) (w : Word) (s : State) : State :=
  if o % 4 ≠ 0 ∨ o + 4 > s.cfg.arraySize then s.refuse .arrayRange
  else if s.pg = false then unarmedWrite o w s
  else if s.lock = true ∨ s.op ≠ .none then s.refuse .armedButBlocked
  else if o % 8 = 0 then { s with latch := some { offset := o, word := w } }
  else highWordWrite o w s

/-- ARR_WR32 at an offset (R150 to R154). -/
def busArrayWrite (o : Nat) (w : Word) (s : State) : State := arrayWriteEffect o w (s.logArrayWrite o w)

/-! ### Transactions as instructions -/

/-- Perform a transaction: only while no fault and no refusal is recorded (R130). -/
def transaction (f : State → State) (s : State) : Host.Outcome State Fault Refusal :=
  if s.live then outcome (f s) else outcome s

end Sys2Proof.Machine
end

