-- ==== Sys2Proof/Machine/BusTransactions.lean ====
section
/-! DEFINITION. The meanings of the thirteen bus transactions of 30_encoding.md R110, each over its operation in
Machine/Bus.lean. -/

namespace Sys2Proof.Machine

/-- SR_RD (R132). -/
def execSrRd (s : State) : Host.Outcome State Fault Refusal := transaction busSrRead s

/-- SR_WR (R133). -/
def execSrWr (v : Word) (s : State) : Host.Outcome State Fault Refusal := transaction (busSrWrite v) s

/-- CR_RD (R134). -/
def execCrRd (s : State) : Host.Outcome State Fault Refusal := transaction busCrRead s

/-- CR_WR (R135, R136). -/
def execCrWr (v : Word) (s : State) : Host.Outcome State Fault Refusal := transaction (busCrWrite v) s

/-- KEYR_WR (R142, R143). -/
def execKeyrWr (v : Word) (s : State) : Host.Outcome State Fault Refusal := transaction (busKeyWrite v) s

/-- KEYR_RD (R144). -/
def execKeyrRd (s : State) : Host.Outcome State Fault Refusal := transaction busKeyRead s

/-- ACR_RD: refused with UnmodelledRegister (R145, R31). -/
def execAcrRd (s : State) : Host.Outcome State Fault Refusal := transaction (busUnmodelledRead acrOffset) s

/-- ACR_WR: refused with UnmodelledRegister (R145, R31). -/
def execAcrWr (v : Word) (s : State) : Host.Outcome State Fault Refusal := transaction (busUnmodelledWrite acrOffset v) s

/-- OPTR_RD: refused with UnmodelledRegister (R145, R42). -/
def execOptrRd (s : State) : Host.Outcome State Fault Refusal := transaction (busUnmodelledRead optrOffset) s

/-- OPTR_WR: refused with UnmodelledRegister (R145, R42). -/
def execOptrWr (v : Word) (s : State) : Host.Outcome State Fault Refusal := transaction (busUnmodelledWrite optrOffset v) s

/-- ARR_RD8 (R147 to R149). -/
def execArrRd8 (o : BitVec 26) (s : State) : Host.Outcome State Fault Refusal := transaction (busArrayRead o.toNat) s

/-- ARR_WR32 (R150 to R154). -/
def execArrWr32 (o : BitVec 26) (v : Word) (s : State) : Host.Outcome State Fault Refusal :=
  transaction (busArrayWrite o.toNat v) s

/-- FUSE_RD16 (R146). -/
def execFuseRd16 (s : State) : Host.Outcome State Fault Refusal := transaction busFuseRead s

end Sys2Proof.Machine
end

