-- ==== Sys2Proof/Machine/Fsm.lean ====
section
/-! DEFINITION. The flash FSM: the completion step (40_register_bus.md R155 to R161), and when it happens. -/

namespace Sys2Proof.Machine

/-- Every byte of the double-word at an offset is erased (R157). -/
def State.erasedAt (s : State) (o : Nat) : Bool :=
  (List.range 8).all fun i => decide (s.byteAt (o + i) = s.cfg.erasedByte)

/-- n bytes from an offset on each take a draw (R158, R159). -/
def State.drawInto (o n : Nat) (s : State) : State := (s.putBytes o (s.drawBytes 0 n)).afterDraws n

/-- What completion does to the array for `Erase(p)` (R156, R159, R160). -/
def completeErase (p : BitVec 6) (s : State) : State :=
  if s.cfg.wrpPages.contains p.toNat then s
  else if s.aborted then s.drawInto (p.toNat * s.cfg.page) s.cfg.page
  else s.putBytes (p.toNat * s.cfg.page) (List.replicate s.cfg.page s.cfg.erasedByte)

/-- What completion does to the array for `Program(o, lo, hi)` (R157 to R160). -/
def completeProgram (o : Nat) (lo hi : Word) (s : State) : State :=
  if s.cfg.wrpPages.contains (o / s.cfg.page) then s
  else if s.aborted then s.drawInto o 8
  else if s.erasedAt o then s.putBytes o (bytesOfWord lo ++ bytesOfWord hi)
  else s.drawInto o 8

/-- The common effect of every completion step (R161), with its `HISTORY` entry (R58). -/
def finishOp (op : Op) (s : State) : State :=
  { (s.log (.completion op)).afterDraws 1 with op := .none, aborted := false, flags := drawFlags (s.drawAt 0) }

/-- The completion step of the flash FSM (R155); nothing happens while no operation is in flight. -/
def fsmComplete (s : State) : State :=
  match s.op with
  | .none => s
  | .erase p => finishOp (.erase p) (completeErase p s)
  | .program o lo hi => finishOp (.program o lo hi) (completeProgram o lo hi s)

/-- The flash FSM's turn at a transaction boundary (R80, R155): while an operation is in flight and the machine is live, a
draw says whether the completion step happens here. It may answer no for ever (D29). -/
def fsmTurn (s : State) : State :=
  if s.live = false ∨ s.op = .none then s
  else if drawBit (s.drawAt 0) then fsmComplete (s.afterDraws 1)
  else s.afterDraws 1

end Sys2Proof.Machine
end

