-- ==== Sys2Proof/Machine/Sequencer.lean ====
section
/-! DEFINITION. The register sequencer (41_sequencer.md and files 42 to 45): accepting a command, one sequencer step, and
running a command to its response. A sequencer step is the local computations before one bus transaction, that transaction,
and the response if the command ends with it (R172). -/

namespace Sys2Proof.Machine

/-! ### Moving on -/

/-- The next transaction is the given one, one position on (R56). -/
def State.goto (r : Run) (phase : Phase) (regs : Regs) (s : State) : State :=
  { s with seq := .running { r with pos := r.pos + 1, phase := phase, regs := regs } }

/-- Go on only if the transaction just performed stopped nothing (R182: else SEQ stays as it was). -/
def State.andThen (s : State) (k : State → State) : State := if s.live then k s else s

/-- What the checks after discovery find (R241): they are local computations, and what comes next is not performed yet. -/
inductive Checked where
  /-- The command ends. -/
  | respond (response : Response)
  /-- The next transaction is BUSY_CHECK's SR_RD. -/
  | busyCheck
  /-- The next transaction is the first ARR_RD8 of READ. -/
  | byteReads
deriving DecidableEq, Repr

/-- `raise InvalidArgument` (R16). -/
def Checked.invalid : Checked := .respond { status := .invalidArgument, value := 0, data := [] }

/-- `respond(OK, value, [])`. -/
def Checked.ok (value : Word) : Checked := .respond { status := .ok, value := value, data := [] }

/-! ### The checks after DISCOVER -/

/-- ERASE after discovery: the range check, then the busy check (R210, R241). -/
def eraseChecks (c : Config) (cache : Word) (a b : Word) : Checked :=
  if inRange cache.toNat (pageFloor c a.toNat) (b.toNat * c.page) then .busyCheck else .invalid

/-- WRITE after discovery: absent data, alignment, range, then the busy check (R220, R241). -/
def writeChecks (c : Config) (cache : Word) (a : Word) (data : Option (List Byte)) : Checked :=
  match data with
  | none => .invalid
  | some bytes =>
    if arrayAddress c a.toNat % 8 ≠ 0 then .invalid
    else if inRange cache.toNat a.toNat bytes.length then .busyCheck
    else .invalid

/-- READ after discovery: absent buffer, range; then the byte reads, if there are any (R230, R241). -/
def readChecks (cache : Word) (a b : Word) (buffer : Bool) : Checked :=
  if buffer = false then .invalid
  else if inRange cache.toNat a.toNat b.toNat then
    if b = 0 then .ok 0 else .byteReads
  else .invalid

/-- What the command does after DISCOVER (R175); only INIT, ERASE, WRITE and READ come here. -/
def afterDiscover (c : Config) (cache : Word) (cmd : Command) : Checked :=
  match cmd with
  | .init => .ok 0
  | .erase a b => eraseChecks c cache a b
  | .write a data => writeChecks c cache a data
  | .read a b buffer => readChecks cache a b buffer
  | .unlock => .ok 0
  | .lock => .ok 0
  | .pageSize => .ok c.pageSize
  | .chipSize => .ok cache

/-! ### Accepting a command -/

/-- The offset operand of a command, else 0. -/
def Command.offset : Command → Word
  | .erase a _ => a
  | .write a _ => a
  | .read a _ _ => a
  | .init => 0
  | .unlock => 0
  | .lock => 0
  | .pageSize => 0
  | .chipSize => 0

/-- The page count or the length of a command, else 0. -/
def Command.count : Command → Word
  | .erase _ b => b
  | .write _ (some bytes) => BitVec.ofNat 32 bytes.length
  | .write _ none => 0
  | .read _ b _ => b
  | .init => 0
  | .unlock => 0
  | .lock => 0
  | .pageSize => 0
  | .chipSize => 0

/-- The working registers as a command starts (R55): the operands, and 0 where the pseudocode has assigned nothing. -/
def Regs.start (cmd : Command) : Regs where
  a := cmd.offset
  n := cmd.count
  rs := 0
  p := 0
  u := 0
  k := 0
  lo := 0
  hi := 0
  c := 0
  s := 0
  buf := []
  r := false

/-- The host issues a decoded command: `SEQ <- Running(cmd, 0, regs)` (R170). -/
def State.accept (cmd : Command) (s : State) : State :=
  { s with seq := .running { cmd := cmd, pos := 0, phase := .first, regs := Regs.start cmd } }

/-! ### Units: the pages of ERASE, the double-words of WRITE -/

/-- The first page of ERASE: `rs div PAGE_SIZE` (R210). -/
def firstPage (c : Config) (g : Regs) : Nat := g.rs.toNat / c.page

/-- After the busy check: the first unit comes next, or the response if there is none (R210, R220). -/
def firstUnit (r : Run) (s : State) : State :=
  match r.cmd with
  | .erase _ b => if b = 0 then s.respond .ok 0 [] else s.goto r (.clearBefore (firstPage s.cfg r.regs)) r.regs
  | .write _ (some bytes) => if bytes.length = 0 then s.respond .ok 0 [] else s.goto r (.clearBefore 0) r.regs
  | .write _ none => s.raiseInvalidArgument
  | .read _ _ _ => s.respond .ok 0 []
  | .init => s.respond .ok 0 []
  | .unlock => s.respond .ok 0 []
  | .lock => s.respond .ok 0 []
  | .pageSize => s.respond .ok 0 []
  | .chipSize => s.respond .ok 0 []

/-- After a unit's cleanup: Timeout if its poll expired, else the next unit comes next, or the response (R210 step 5, R220
step 6). -/
def nextUnit (r : Run) (s : State) : State :=
  if r.regs.r then s.raiseTimeout
  else match r.cmd with
    | .erase _ b =>
      if r.regs.p.toNat + 1 < firstPage s.cfg r.regs + b.toNat then s.goto r (.clearBefore (r.regs.p.toNat + 1)) r.regs
      else s.respond .ok 0 []
    | .write _ (some bytes) =>
      if r.regs.u.toNat + 1 < doubleWords bytes.length then s.goto r (.clearBefore (r.regs.u.toNat + 1)) r.regs
      else s.respond .ok (BitVec.ofNat 32 (8 * doubleWords bytes.length)) []
    | .write _ none => s.raiseInvalidArgument
    | .read _ _ _ => s.respond .ok 0 []
    | .init => s.respond .ok 0 []
    | .unlock => s.respond .ok 0 []
    | .lock => s.respond .ok 0 []
    | .pageSize => s.respond .ok 0 []
    | .chipSize => s.respond .ok 0 []

/-- The poll budget of a command: `ERASE_TIMEOUT` for ERASE, `PROG_TIMEOUT` for WRITE (R210, R220). -/
def pollBudget (c : Config) (cmd : Command) : Word :=
  match cmd with
  | .erase _ _ => c.eraseTimeout
  | .write _ _ => c.progTimeout
  | .read _ _ _ => 0
  | .init => 0
  | .unlock => 0
  | .lock => 0
  | .pageSize => 0
  | .chipSize => 0

/-- The mode bit of a command: PER for ERASE, PG for WRITE (R210, R220). -/
def modeBit (cmd : Command) : Word :=
  match cmd with
  | .erase _ _ => crPer
  | .write _ _ => crPg
  | .read _ _ _ => 0
  | .init => 0
  | .unlock => 0
  | .lock => 0
  | .pageSize => 0
  | .chipSize => 0

/-- The CR value that starts the erase, or that sets PG (R103, R178). -/
def modeWord (r : Run) : Word :=
  match r.cmd with
  | .erase _ _ => eraseCr r.regs.c r.regs.p
  | .write _ _ => r.regs.c ||| crPg
  | .read _ _ _ => r.regs.c
  | .init => r.regs.c
  | .unlock => r.regs.c
  | .lock => r.regs.c
  | .pageSize => r.regs.c
  | .chipSize => r.regs.c

/-- POLL(T) comes next: with T = 0 it expires without a read (R177). -/
def enterPoll (r : Run) (s : State) : State :=
  if pollBudget s.cfg r.cmd = 0 then s.goto r .clearAfter r.regs else s.goto r (.poll 1) r.regs

/-- POLL has expired: the budget is 0, or its last SR read showed BSY = 1 (R177). -/
def pollExpired (c : Config) (r : Run) : Bool := decide (pollBudget c r.cmd = 0) || r.regs.s.getLsbD 16

/-- After the mode write: ERASE polls, WRITE sends its words (R210, R220). -/
def afterModeWrite (r : Run) (s : State) : State :=
  match r.cmd with
  | .write _ _ => s.goto r .lowWord r.regs
  | .erase _ _ => enterPoll r s
  | .read _ _ _ => enterPoll r s
  | .init => enterPoll r s
  | .unlock => enterPoll r s
  | .lock => enterPoll r s
  | .pageSize => enterPoll r s
  | .chipSize => enterPoll r s

/-- The array offset of the current double-word: `A + 8*u` (R220). -/
def doubleWordOffset (g : Regs) : Nat := g.a.toNat + 8 * g.u.toNat

/-! ### One sequencer step per phase: the local computations before the transaction, the transaction, and the response if
the command ends with it (R172) -/

/-- The fuse read of DISCOVER, and the cache (R174). -/
def discoverCapacity (s : State) : State :=
  { busFuseRead s with chipSizeCache := chipSizeOf s.cfg.fuseValue }

/-- DISCOVER's transaction; the command ends with it if its checks say so (R174, R175). -/
def stepFuse (r : Run) (s : State) : State :=
  match afterDiscover s.cfg (chipSizeOf s.cfg.fuseValue) r.cmd with
  | .respond response => (discoverCapacity s).respond response.status response.value response.data
  | .busyCheck => (discoverCapacity s).goto r .busy r.regs
  | .byteReads => (discoverCapacity s).goto r .byteRead r.regs

/-- `rs <- (A div PAGE_SIZE) * PAGE_SIZE` of ERASE (R210); no other command assigns `rs`. -/
def floorStart (c : Config) (r : Run) : Run :=
  match r.cmd with
  | .erase a _ => { r with regs := { r.regs with rs := BitVec.ofNat 32 (pageFloor c a.toNat) } }
  | .write _ _ => r
  | .read _ _ _ => r
  | .init => r
  | .unlock => r
  | .lock => r
  | .pageSize => r
  | .chipSize => r

/-- The run with the SR image just read. -/
def Run.withStatus (r : Run) (image : Word) : Run := { r with regs := { r.regs with s := image } }

/-- BUSY_CHECK (R179). -/
def stepBusy (r : Run) (s : State) : State :=
  if s.bsy then (busSrRead s).raiseInvalidArgument
  else firstUnit ((floorStart s.cfg r).withStatus s.srWord) (busSrRead s)

/-- The first page index that does not fit CR's six bits: refused, with no transaction (R213). -/
def refusePage (page : Nat) (r : Run) (s : State) : State :=
  { s with seq := .running { r with regs := { r.regs with p := BitVec.ofNat 32 page } } }.refuse .pageIndexWidth

/-- The words of double-word u, from its data bytes and the draws of its pad bytes (R220 step 1, R221). -/
def assembleWords (data : List Byte) (u : Nat) (g : Regs) (s : State) : Regs :=
  { g with
    u := BitVec.ofNat 32 u
    lo := wordAt (s.doubleWordBytes data u) 0
    hi := wordAt (s.doubleWordBytes data u) 4 }

/-- The page index or the double-word's words, and then CLEAR_STATUS before the start (R178). -/
def stepClearBefore (unit : Nat) (r : Run) (s : State) : State :=
  match r.cmd with
  | .erase _ _ =>
    if unit > 63 then refusePage unit r s
    else (busSrWrite srClear s).goto r .modeRead { r.regs with p := BitVec.ofNat 32 unit }
  | .write _ (some bytes) =>
    (busSrWrite srClear (s.afterDraws (padCount bytes unit))).goto r .modeRead (assembleWords bytes unit r.regs s)
  | .write _ none => (busSrWrite srClear s).goto r .modeRead r.regs
  | .read _ _ _ => (busSrWrite srClear s).goto r .modeRead r.regs
  | .init => (busSrWrite srClear s).goto r .modeRead r.regs
  | .unlock => (busSrWrite srClear s).goto r .modeRead r.regs
  | .lock => (busSrWrite srClear s).goto r .modeRead r.regs
  | .pageSize => (busSrWrite srClear s).goto r .modeRead r.regs
  | .chipSize => (busSrWrite srClear s).goto r .modeRead r.regs

/-- The CR read before the start (R178). -/
def stepModeRead (r : Run) (s : State) : State := (busCrRead s).goto r .modeWrite { r.regs with c := s.crWord }

/-- The CR write that starts the erase or sets PG. -/
def stepModeWrite (r : Run) (s : State) : State := (busCrWrite (modeWord r) s).andThen (afterModeWrite r)

/-- The low word (R220 step 3). -/
def stepLowWord (r : Run) (s : State) : State :=
  (busArrayWrite (doubleWordOffset r.regs) r.regs.lo s).andThen (State.goto r .highWord r.regs)

/-- The high word (R220 step 3). -/
def stepHighWord (r : Run) (s : State) : State :=
  (busArrayWrite (doubleWordOffset r.regs + 4) r.regs.hi s).andThen (enterPoll r)

/-- The k-th SR read of POLL: Done at the first BSY = 0, Expired after the last of the budget (R177). -/
def stepPoll (k : Nat) (r : Run) (s : State) : State :=
  if s.bsy = true ∧ k < (pollBudget s.cfg r.cmd).toNat then
    (busSrRead s).goto r (.poll (k + 1)) { r.regs with k := BitVec.ofNat 32 k, s := s.srWord }
  else (busSrRead s).goto r .clearAfter { r.regs with k := BitVec.ofNat 32 k, s := s.srWord }

/-- The poll's result, and then CLEAR_STATUS after the poll (R177, R178). -/
def stepClearAfter (r : Run) (s : State) : State :=
  (busSrWrite srClear s).goto r .cleanupRead { r.regs with r := pollExpired s.cfg r }

/-- The CR read of CR_CLEAR (R178). -/
def stepCleanupRead (r : Run) (s : State) : State :=
  (busCrRead s).goto r .cleanupWrite { r.regs with c := s.crWord }

/-- The CR write of CR_CLEAR, then the next unit or the response (R178). -/
def stepCleanupWrite (r : Run) (s : State) : State :=
  (busCrWrite (r.regs.c &&& ~~~ modeBit r.cmd) s).andThen (nextUnit r)

/-- The first key write of UNLOCK (R201). -/
def stepFirstKey (r : Run) (s : State) : State := (busKeyWrite s.cfg.key1 s).goto r .secondKey r.regs

/-- The second key write of UNLOCK, and its response (R201). -/
def stepSecondKey (s : State) : State := (busKeyWrite s.cfg.key2 s).respond .ok 0 []

/-- The CR read of LOCK (R202). -/
def stepLockRead (r : Run) (s : State) : State := (busCrRead s).goto r .lockWrite { r.regs with c := s.crWord }

/-- The CR write of LOCK, and its response (R202). -/
def stepLockWrite (r : Run) (s : State) : State :=
  (busCrWrite (r.regs.c ||| crLock) s).andThen (State.respond .ok 0 [])

/-- One byte read of READ, and its response after the last (R230). -/
def stepByteRead (r : Run) (s : State) : State :=
  (busArrayRead (r.regs.a.toNat + r.regs.buf.length) s).andThen fun t =>
    if r.regs.buf.length + 1 < r.regs.n.toNat then
      t.goto r .byteRead { r.regs with buf := r.regs.buf ++ [s.arrayValue (r.regs.a.toNat + r.regs.buf.length)] }
    else t.respond .ok r.regs.n (r.regs.buf ++ [s.arrayValue (r.regs.a.toNat + r.regs.buf.length)])

/-- The first step of INIT, ERASE, WRITE and READ: DISCOVER's fuse read, or, if the capacity is cached, what the checks find:
the first transaction after discovery, or a response in a step of its own (R172, R174, R175). -/
def stepDiscover (r : Run) (s : State) : State :=
  if s.chipSizeCache = 0 then stepFuse r s
  else match afterDiscover s.cfg s.chipSizeCache r.cmd with
    | .respond response => s.respond response.status response.value response.data
    | .busyCheck => stepBusy r s
    | .byteReads => stepByteRead r s

/-- The first step of a command (files 42 to 45). -/
def stepFirst (r : Run) (s : State) : State :=
  match r.cmd with
  | .init => stepDiscover r s
  | .erase _ _ => stepDiscover r s
  | .write _ _ => stepDiscover r s
  | .read _ _ _ => stepDiscover r s
  | .unlock => stepFirstKey r s
  | .lock => stepLockRead r s
  | .pageSize => s.respond .ok s.cfg.pageSize []
  | .chipSize => s.respond .ok s.chipSizeCache []

/-- One step of a running sequencer (R172). -/
def sequencerStep (r : Run) (s : State) : State :=
  match r.phase with
  | .first => stepFirst r s
  | .busy => stepBusy r s
  | .clearBefore unit => stepClearBefore unit r s
  | .modeRead => stepModeRead r s
  | .modeWrite => stepModeWrite r s
  | .lowWord => stepLowWord r s
  | .highWord => stepHighWord r s
  | .poll k => stepPoll k r s
  | .clearAfter => stepClearAfter r s
  | .cleanupRead => stepCleanupRead r s
  | .cleanupWrite => stepCleanupWrite r s
  | .secondKey => stepSecondKey s
  | .lockWrite => stepLockWrite r s
  | .byteRead => stepByteRead r s

/-- The sequencer's turn: one step if it runs a command, nothing if it is idle. -/
def sequencerTurn (s : State) : State :=
  match s.seq with
  | .idle => s
  | .running r => sequencerStep r s

/-! ### Running a command to its response -/

/-- The sequencer runs a command and may go on. -/
def State.sequencing (s : State) : Bool :=
  match s.seq with
  | .idle => false
  | .running _ => s.live

/-- Sequencer steps, with the flash FSM's turn between every two, until the command has responded or the machine has
stopped; at most `n + 1` of them. -/
def runSequencer : Nat → State → State
  | 0, s => sequencerTurn s
  | n + 1, s => if (sequencerTurn s).sequencing then runSequencer n (fsmTurn (sequencerTurn s)) else sequencerTurn s

/-- A bound on the sequencer steps of a command (R173): its pages, double-words or bytes, each page and double-word with
its poll budget. -/
def commandBound (c : Config) (cmd : Command) : Nat :=
  match cmd with
  | .erase _ b => (c.eraseTimeout.toNat + 6) * b.toNat + 2
  | .write _ (some bytes) => (c.progTimeout.toNat + 8) * doubleWords bytes.length + 2
  | .write _ none => 2
  | .read _ b _ => b.toNat + 2
  | .init => 2
  | .unlock => 2
  | .lock => 2
  | .pageSize => 2
  | .chipSize => 2

/-- Issue a command and run it to its response (R170 to R173, R181): "A command's meaning is the sequence of bus
transactions it issues and what those transactions do" (R8). The host has no move while a command runs (R170). -/
def runCommand (cmd : Command) (s : State) : Host.Outcome State Fault Refusal :=
  if s.live then
    match s.seq with
    | .idle => outcome (runSequencer (commandBound s.cfg cmd) (s.accept cmd))
    | .running _ => .refused .commandWhileRunning
  else outcome s

end Sys2Proof.Machine
end

