-- ==== Sys2Proof/Machine/Commands.lean ====
section
/-! DEFINITION. The meanings of the eight commands of 30_encoding.md R105, each run by the sequencer. -/

namespace Sys2Proof.Machine

/-- INIT (R200). -/
def execInit (s : State) : Host.Outcome State Fault Refusal := runCommand .init s

/-- UNLOCK (R201). -/
def execUnlock (s : State) : Host.Outcome State Fault Refusal := runCommand .unlock s

/-- LOCK (R202). -/
def execLock (s : State) : Host.Outcome State Fault Refusal := runCommand .lock s

/-- ERASE (R210 to R213). -/
def execErase (addr pages : Word) (s : State) : Host.Outcome State Fault Refusal := runCommand (.erase addr pages) s

/-- WRITE (R220 to R223). -/
def execWrite (addr : Word) (data : Option (List Byte)) (s : State) : Host.Outcome State Fault Refusal :=
  runCommand (.write addr data) s

/-- READ (R230). -/
def execRead (addr length : Word) (buffer : Bool) (s : State) : Host.Outcome State Fault Refusal :=
  runCommand (.read addr length buffer) s

/-- PAGESIZE (R231). -/
def execPageSize (s : State) : Host.Outcome State Fault Refusal := runCommand .pageSize s

/-- CHIPSIZE (R232). -/
def execChipSize (s : State) : Host.Outcome State Fault Refusal := runCommand .chipSize s

end Sys2Proof.Machine
end

