-- ==== Sys2Proof/Machine/Dispatch.lean ====
section
/-! DEFINITION. One arm per instruction: its meaning. -/

namespace Sys2Proof.Machine

def exec (i : Instr) (s : State) : Host.Outcome State Fault Refusal :=
  match i with
  | .init => Sys2Proof.Machine.execInit s
  | .unlock => Sys2Proof.Machine.execUnlock s
  | .lock => Sys2Proof.Machine.execLock s
  | .erase addr pages => Sys2Proof.Machine.execErase addr pages s
  | .write addr data => Sys2Proof.Machine.execWrite addr data s
  | .read addr length buffer => Sys2Proof.Machine.execRead addr length buffer s
  | .pageSize => Sys2Proof.Machine.execPageSize s
  | .chipSize => Sys2Proof.Machine.execChipSize s
  | .srRd => Sys2Proof.Machine.execSrRd s
  | .srWr value => Sys2Proof.Machine.execSrWr value s
  | .crRd => Sys2Proof.Machine.execCrRd s
  | .crWr value => Sys2Proof.Machine.execCrWr value s
  | .keyrWr value => Sys2Proof.Machine.execKeyrWr value s
  | .keyrRd => Sys2Proof.Machine.execKeyrRd s
  | .acrRd => Sys2Proof.Machine.execAcrRd s
  | .acrWr value => Sys2Proof.Machine.execAcrWr value s
  | .optrRd => Sys2Proof.Machine.execOptrRd s
  | .optrWr value => Sys2Proof.Machine.execOptrWr value s
  | .arrRd8 offset => Sys2Proof.Machine.execArrRd8 offset s
  | .arrWr32 offset value => Sys2Proof.Machine.execArrWr32 offset value s
  | .fuseRd16 => Sys2Proof.Machine.execFuseRd16 s

end Sys2Proof.Machine
end

