-- ==== Sys2Proof/Machine/Fetch.lean ====
section
/-! DEFINITION. Taking the next command from the host (41_sequencer.md R170, R171), taking a bus transaction from the
test port, and placing either there. -/

namespace Sys2Proof.Machine

/-- The next command has been taken. -/
def State.popRequest (s : State) : State := { s with requests := s.requests.tail }

/-- The test port's transaction has been taken. -/
def State.popProbe (s : State) : State := { s with busProbe := none }

/-- An encoded instruction that the decoder rejects: the record its reason makes (R107, R131, R145, R171). -/
def rejectRequest (e : Reject) (s : State) : Host.Outcome State Fault Refusal :=
  match e with
  | .reservedCommand => outcome (s.refuse .reservedCommand)
  | .badTransaction => outcome (s.refuse .badTransaction)
  | .unmodelledRegister => outcome (s.refuse .unmodelledRegister)
  | .dataTooLong => .refused .dataTooLong

/-- Append a transaction that is refused, with the value a write carries (R58, R130, R131). -/
def State.logRefused (q : BusRequest) (s : State) : State :=
  s.log (.bus q.word (descriptorOffset q.word).toNat (if descriptorWrites q.word then some q.value else none))

/-- Put an encoded instruction where the next step takes it: the sequencer is idle (it takes a command only then, R170); a
command is first in the host's list, in place of the one that stood there, with nothing at the test port, and a bus
transaction stands at the test port. -/
def State.placeRequest (q : Request) (s : State) : State :=
  match q with
  | .command c => { s with seq := .idle, requests := c :: s.requests.tail, busProbe := none }
  | .bus t => { s with seq := .idle, busProbe := some t }

end Sys2Proof.Machine
end

