-- ==== Sys2Proof/Machine/Step.lean ====
section
/-! DEFINITION. One step of the machine: the flash FSM's turn, then the sequencer's or the host's. -/

namespace Sys2Proof.Machine

/-- Issue the bus transaction of the test port, outside any command. -/
def actProbe (q : BusRequest) (s : State) : Host.Outcome State Fault Refusal :=
  match decode (.bus q) with
  | .ok i => exec i s.popProbe
  | .error e => rejectRequest e (s.popProbe.logRefused q)

/-- The host issues its next command, or waits if it has none (R170, R171, R271). -/
def actHost (s : State) : Host.Outcome State Fault Refusal :=
  match s.requests with
  | [] => outcome s
  | q :: _ =>
    match decode (.command q) with
    | .ok i => exec i s.popRequest
    | .error e => rejectRequest e s.popRequest

/-- The sequencer steps if it runs a command; else the host has its move, unless a transaction stands at the test port. -/
def act (s : State) : Host.Outcome State Fault Refusal :=
  match s.seq with
  | .running r => outcome (sequencerStep r s)
  | .idle =>
    match s.busProbe with
    | some q => actProbe q s
    | none => actHost s

/-- One step: nothing while a fault or a refusal is recorded (R60, R61); else the flash FSM's turn at this boundary (R155),
then `act`. -/
def step (s : State) : Host.Outcome State Fault Refusal := if s.live then act (fsmTurn s) else outcome s

/-- The state in which the next step takes the table word `w` of `nbits` bits, with operands of zero: a command word from the
host's list, a descriptor from the test port. -/
def State.withFetchWord (s : State) (_nbits w : Nat) : State := s.placeRequest (.ofTableWord w)

end Sys2Proof.Machine
end

