-- ==== Sys2Proof/Safety.lean ====
section
/-! DEFINITION. What counts as a safe state and a ready machine, and the vocabulary the claims use. -/

namespace Sys2Proof.Machine

/-! ### The invariant -/

/-- The array lists only offsets inside it, in canonical form (R49). -/
def State.memoryOk (s : State) : Bool :=
  Memory.wf s.cfg.initialByte s.array && s.array.all fun cell => decide (cell.1 < s.cfg.arraySize)

/-- `CR.LOCK = 0` implies `KEYSTAGE = Expect1` (R48). -/
def State.keysOk (s : State) : Bool := s.lock || decide (s.keyStage = .expect1)

/-- `LATCH != None` implies `CR.PG = 1` (R48), and the latch names the low word of a double-word of the array (R46). -/
def State.latchOk (s : State) : Bool :=
  match s.latch with
  | none => true
  | some l => s.pg && decide (l.offset % 8 = 0) && decide (l.offset + 8 ≤ s.cfg.arraySize)

/-- `ABORTED = true` implies `OP != None` (R48), and the operation in flight has its target in the array (R47, R162). -/
def State.opOk (s : State) : Bool :=
  match s.op with
  | .none => !s.aborted
  | .erase p => decide ((p.toNat + 1) * s.cfg.page ≤ s.cfg.arraySize)
  | .program o _ _ => decide (o % 8 = 0) && decide (o + 8 ≤ s.cfg.arraySize)

/-- The cache is 0 or the array's size (R52, R72, R174). -/
def State.cacheOk (s : State) : Bool := decide (s.chipSizeCache = 0) || decide (s.chipSizeCache.toNat = s.cfg.arraySize)

/-- The invariant every step keeps: the parameters meet R10, and the relations of R48 and the ranges of R46, R47, R49 and
R72 hold. -/
abbrev StateInv (s : State) : Prop :=
  (s.cfg.admissible && s.memoryOk && s.keysOk && s.latchOk && s.opOk && s.cacheOk) = true

/-! ### When the host may issue a command -/

/-- The machine is live and the sequencer idle: the host may issue a command (R170). -/
abbrev Ready (s : State) : Prop := s.live = true ∧ s.seq = .idle

/-- Ready, and no operation is in flight. -/
abbrev Quiet (s : State) : Prop := Ready s ∧ s.op = .none

/-! ### Capacity -/

/-- The capacity a command's checks use: the cache, or what DISCOVER puts there (R174). -/
def State.capacity (s : State) : Nat := if s.chipSizeCache = 0 then s.cfg.arraySize else s.chipSizeCache.toNat

/-- The state after DISCOVER (R174), written out. -/
def State.discovered (s : State) : State :=
  if s.chipSizeCache = 0 then
    { s with
      chipSizeCache := BitVec.ofNat 32 (s.cfg.fuseValue.toNat * 1024)
      history := s.history ++ [.bus 0x24000000 0 (some (s.cfg.fuseValue.setWidth 32))] }
  else s

/-- The instruction is one of the eight commands (R105), as the sequencer holds it. -/
def commandOf : Instr → Option Command
  | .init => some .init
  | .unlock => some .unlock
  | .lock => some .lock
  | .erase a b => some (.erase a b)
  | .write a data => some (.write a data)
  | .read a b buffer => some (.read a b buffer)
  | .pageSize => some .pageSize
  | .chipSize => some .chipSize
  | .srRd | .srWr _ | .crRd | .crWr _ | .keyrWr _ | .keyrRd => none
  | .acrRd | .acrWr _ | .optrRd | .optrWr _ => none
  | .arrRd8 _ | .arrWr32 _ _ | .fuseRd16 => none

/-- An entry of HISTORY that is a bus write (R109: DIR is 1). -/
def Event.isWrite : Event → Bool
  | .bus d _ _ => descriptorWrites d
  | .completion _ => false

/-- An entry of HISTORY that is a bus transaction. -/
def Event.isBus : Event → Bool
  | .bus _ _ _ => true
  | .completion _ => false

/-- An entry of HISTORY that is an SR read. -/
def Event.isStatusRead : Event → Bool
  | .bus d _ _ => decide (d = 0x08000010)
  | .completion _ => false

/-- An entry of HISTORY that is an SR read that returned BSY = 1 and no flag. -/
def Event.isBusyRead (e : Event) : Bool := decide (e = .bus 0x08000010 0x10 (some 0x00010000))

/-! ### Schedules: what the draws say about the completion step (R155, log entry 1) -/

/-- The draws from the k-th on say n times: not now. -/
def State.waitsFor (s : State) (k n : Nat) : Bool := (List.range n).all fun i => !drawBit (s.drawAt (k + i))

/-- The draws from the k-th on say n times: not now; and then: now. -/
def State.completesAfter (s : State) (k n : Nat) : Bool := s.waitsFor k n && drawBit (s.drawAt (k + n))

/-- The first draw of unit i (page or double-word) of a command, if each earlier unit j waited `waits j` boundaries, completed
at the next and drew its flags. -/
def unitDraw (waits : Nat → Nat) : Nat → Nat
  | 0 => 0
  | i + 1 => unitDraw waits i + waits i + 2

/-- Completion of a program of the double-word at an offset draws its eight bytes: its page is not protected and some byte of it is
not erased (R158). -/
def State.dirtyAt (s : State) (o : Nat) : Bool := !s.cfg.wrpPages.contains (o / s.cfg.page) && !s.erasedAt o

/-- The first draw of double-word i of a WRITE at an offset, if each earlier double-word j waited `waits j` boundaries, completed
at the next, drew its eight bytes if some byte of it was not erased, and drew its flags. -/
def State.writeDraw (s : State) (a : Nat) (waits : Nat → Nat) : Nat → Nat
  | 0 => 0
  | i + 1 => s.writeDraw a waits i + waits i + (if s.dirtyAt (a + 8 * i) then 10 else 2)

/-- How many draws DISCOVER's boundary takes while an operation is in flight: one if the fuse is read, else none. -/
def State.discoverDraws (s : State) : Nat := if s.chipSizeCache = 0 then 1 else 0

/-! ### Descriptors -/

/-- The (match, mask) pairs of the BUS32 rows of the opcode table (R110). -/
def busRows : List (Word × Word) :=
  [(0x08000010, 0xFFFFFFFF), (0x88000010, 0xFFFFFFFF), (0x08000014, 0xFFFFFFFF), (0x88000014, 0xFFFFFFFF),
   (0x88000008, 0xFFFFFFFF), (0x08000008, 0xFFFFFFFF), (0x08000000, 0xFFFFFFFF), (0x88000000, 0xFFFFFFFF),
   (0x08000020, 0xFFFFFFFF), (0x88000020, 0xFFFFFFFF), (0x10000000, 0xFC000000), (0x98000000, 0xFC000000),
   (0x24000000, 0xFFFFFFFF)]

/-- The descriptor matches a row of R110. -/
def matchesBusRow (w : Word) : Bool := busRows.any fun row => decide (w &&& row.2 = row.1)

/-- The descriptor is a word access to a register offset that is a multiple of 4: bit 30 is 0, SPACE is 0, WIDTH is 2, and
OFFSET's two low bits are 0 (R109, R77). -/
def isRegisterWordAccess (w : Word) : Bool := decide (w &&& 0x7C000003 = 0x08000000)

end Sys2Proof.Machine
end

