-- ==== Sys2Proof/Certificates/Slice0/Obligations.lean ====
section
/-! DEFINITION. The statements for the provers: what the numbered rules of spec/ say, over every state. -/

open Sys2Proof Sys2Proof.Machine

/-! ### Encoding (30_encoding.md) -/

/-- R105, R110: each row's word, written out from the tables (operands of zero, two array offsets), is read as the instruction it
stands for, and command word 9 is read as none. -/
def Obligations.TableWordsDecode : Prop :=
  decodeTableWord 32 0x00000001 = some .init ∧ decodeTableWord 32 0x00000002 = some .unlock ∧
  decodeTableWord 32 0x00000003 = some .lock ∧ decodeTableWord 32 0x00000004 = some (.erase 0 0) ∧
  decodeTableWord 32 0x00000005 = some (.write 0 none) ∧ decodeTableWord 32 0x00000006 = some (.read 0 0 false) ∧
  decodeTableWord 32 0x00000007 = some .pageSize ∧ decodeTableWord 32 0x00000008 = some .chipSize ∧
  decodeTableWord 32 0x08000010 = some .srRd ∧ decodeTableWord 32 0x88000010 = some (.srWr 0) ∧
  decodeTableWord 32 0x08000014 = some .crRd ∧ decodeTableWord 32 0x88000014 = some (.crWr 0) ∧
  decodeTableWord 32 0x88000008 = some (.keyrWr 0) ∧ decodeTableWord 32 0x08000008 = some .keyrRd ∧
  decodeTableWord 32 0x08000000 = some .acrRd ∧ decodeTableWord 32 0x88000000 = some (.acrWr 0) ∧
  decodeTableWord 32 0x08000020 = some .optrRd ∧ decodeTableWord 32 0x88000020 = some (.optrWr 0) ∧
  decodeTableWord 32 0x1001FFFF = some (.arrRd8 0x1FFFF) ∧ decodeTableWord 32 0x98000104 = some (.arrWr32 0x104 0) ∧
  decodeTableWord 32 0x24000000 = some .fuseRd16 ∧ decodeTableWord 32 0x00000009 = none

/-- R105, R106, R109, R110: decoding the encoding of any well-formed instruction gives that instruction, with every
operand at every value. -/
def Obligations.EncodedInstructionDecodes : Prop :=
  ∀ i : Instr, WellFormed i → decode (encode i) = .ok i

/-- R105, R109, R110: each word has one meaning: what an encoded instruction is read as is encoded by that word, in its
encoding, and is well formed. -/
def Obligations.DecodedWordIsItsEncoding : Prop :=
  ∀ (q : Request) (i : Instr), decode q = .ok i →
    (encode i).isBus = q.isBus ∧ (encode i).word = q.word ∧ WellFormed i

/-- R107, R171, and the model's choice of log entry 3 (the host's list, from which the word is taken): a command word whose bits 31
to 4 are not all 0, or whose opcode is 0 or above 8, is refused with ReservedCommand; no transaction is appended to HISTORY and the
sequencer stays idle. -/
def Obligations.ReservedCommandWordStops : Prop :=
  ∀ (s : State) (q : CommandRequest) (rest : List CommandRequest), Ready s → s.busProbe = none → s.requests = q :: rest →
    (q.word = 0 ∨ 9 ≤ q.word.toNat) →
    step s = .refused (.recorded .reservedCommand
      { fsmTurn s with requests := rest, refused := some .reservedCommand })

/-- R131, R44, R145, and the model's choices of log entries 4 (DEDUCED: which reason), 6 (the test port) and 11 (DEDUCED: the
HISTORY entry): a descriptor that matches no row of R110 is refused, with UnmodelledRegister if it is a word access to an
aligned register offset and with BadTransaction otherwise; only REFUSED and HISTORY change. -/
def Obligations.UnlistedDescriptorStops : Prop :=
  ∀ (s : State) (q : BusRequest), Ready s → s.busProbe = some q → matchesBusRow q.word = false →
    step s = .refused (.recorded (if isRegisterWordAccess q.word then .unmodelledRegister else .badTransaction)
      { fsmTurn s with
        busProbe := none
        history := (fsmTurn s).history ++
          [.bus q.word (q.word.extractLsb' 0 26).toNat (if q.word.getLsbD 31 then some q.value else none)]
        refused := some (if isRegisterWordAccess q.word then .unmodelledRegister else .badTransaction) })

/-! ### The step -/

/-- R171 (the decoding) and R155 (the flash FSM's turn), and the model's choices of log entries 3 (the host's list), 7 (one step runs
the whole command, where R170 sets SEQ to Running(cmd, 0) and R172 gives one transaction per step) and 6 (the test port, where no
agent of the spec puts anything): when the command in front of the host's list decodes, it is one of the
eight commands, and a step of a ready machine is the flash FSM's turn at this boundary, the command taken, and that instruction
executed; a step with a transaction at the test port executes that. -/
def Obligations.StepRunsDecodedInstruction : Prop :=
  (∀ (s : State) (q : CommandRequest) (rest : List CommandRequest) (i : Instr), Ready s → s.busProbe = none →
    s.requests = q :: rest → decode (.command q) = .ok i →
    (commandOf i).isSome = true ∧ step s = exec i { fsmTurn s with requests := rest }) ∧
  (∀ (s : State) (q : BusRequest) (i : Instr), Ready s → s.busProbe = some q → decode (.bus q) = .ok i →
    commandOf i = none ∧ step s = exec i { fsmTurn s with busProbe := none })

/-- R60, R61, R130, R182: once a fault or a refusal is recorded, no instruction and no step goes on, and the state stays as
it is. -/
def Obligations.RecordedStopIsFinal : Prop :=
  ∀ s : State, s.live = false →
    (∀ t, step s ≠ .next t) ∧ (∀ i, exec i s = step s) ∧
    (∀ f, s.fault = some f → step s = .fault (.busFault f.offset f.word s)) ∧
    (∀ why, s.fault = none → s.refused = some why → step s = .refused (.recorded why s))

/-- R56, R172, R181: a step of a running sequencer is the flash FSM's turn and one sequencer step, which performs exactly one bus
transaction (none in the one step of a command that issues none) and moves the position on by exactly one, or ends the command
with a response. -/
def Obligations.RunningStepIsOneTransaction : Prop :=
  ∀ (s t : State) (r : Run), s.live = true → s.seq = .running r → step s = .next t →
    t = sequencerTurn (fsmTurn s) ∧
    (t.seq = .idle ∧ t.resp.isSome = true ∨ ∃ r', t.seq = .running r' ∧ r'.cmd = r.cmd ∧ r'.pos = r.pos + 1) ∧
    ∃ es, t.history = (fsmTurn s).history ++ es ∧ (∀ e ∈ es, e.isBus = true) ∧
      (es.length = 1 ∨ es = [] ∧ r.phase = .first ∧ t.seq = .idle)

/-- R155, R271, and the model's choices of log entries 3 (the wait of a host with no command is a step), 1 (DEDUCED: one draw at
this boundary) and 12 (the HISTORY entry of a completion step): an idle machine with no command waits, and its step is the flash
FSM's turn; while an operation is in flight its completion step happens in that wait exactly when the draw says so, and otherwise
SR.BSY stays 1. -/
def Obligations.IdleStepWaits : Prop :=
  ∀ s : State, Ready s → s.busProbe = none → s.requests = [] →
    step s = .next (fsmTurn s) ∧
    (s.op = .none → step s = .next s) ∧
    (s.op ≠ .none → drawBit (s.drawAt 0) = false → step s = .next (s.afterDraws 1)) ∧
    (s.op ≠ .none → drawBit (s.drawAt 0) = true → ∃ t, step s = .next t ∧ t.op = .none ∧ t.history = s.history ++ [.completion s.op])

/-! ### Reset and invariants -/

/-- R270, R62: what reset leaves: no status flag, PG, PER and PNB 0, LOCK 1 (CR reads 0x80000000, SR reads 0), the key stage at
Expect1, no latch, no operation in flight, the array at INITIAL_ARRAY, the cache 0, the sequencer idle, no response, an empty
HISTORY, no fault and no refusal recorded, and (log entries 3 and 6) no
command in the host's list and nothing at the test port. The register values are the spec's own choice (D42). -/
def Obligations.ResetValues : Prop :=
  State.reset.flags = 0 ∧ State.reset.bsy = false ∧ State.reset.pg = false ∧ State.reset.per = false ∧
  State.reset.pnb = 0 ∧ State.reset.strt = false ∧ State.reset.lock = true ∧
  State.reset.crWord = 0x80000000 ∧ State.reset.srWord = 0x00000000 ∧ State.reset.keyStage = .expect1 ∧
  State.reset.latch = none ∧ State.reset.op = .none ∧ State.reset.aborted = false ∧
  (∀ o, State.reset.byteAt o = State.reset.cfg.initialByte o) ∧
  State.reset.chipSizeCache = 0 ∧ State.reset.seq = .idle ∧ State.reset.resp = none ∧ State.reset.history = [] ∧
  State.reset.fault = none ∧ State.reset.refused = none ∧ State.reset.requests = [] ∧ State.reset.busProbe = none

/-- R48, R10, and the model's choice of log entry 2 (DESIGN CHOICE: at reset FUSE_VALUE is 0x0080, PAGE_SIZE 2048, ERASED_BYTE
0xFF and WRP_PAGES empty): the invariant `StateInv` of StepKeepsInvariant holds at reset, whatever the parameters that entry 2
leaves open are. -/
def Obligations.ResetMeetsInvariant : Prop := StateInv State.reset

/-- R48, with the ranges of R46, R47, R49, R72 and the parameters of R10: every step keeps the invariant that the parameters meet
their constraints, the array lists only offsets inside it in canonical form, LOCK = 0 implies the key stage Expect1, a latch
implies PG = 1 and names a double-word of the array, ABORTED implies an operation in flight, whose target lies in the array, and
the cache is 0 or the array's size. -/
def Obligations.StepKeepsInvariant : Prop :=
  ∀ s t : State, StateInv s → step s = .next t → StateInv t

/-- R10, R30, R51: no step changes the configuration. R112, R170, R258 and the model's choices of log entries 3 and 6: a step takes at
most the command in front of the host's list, and no step puts a transaction at the test port. -/
def Obligations.StepKeepsConfiguration : Prop :=
  ∀ s t : State, step s = .next t →
    t.cfg = s.cfg ∧ (t.requests = s.requests ∨ t.requests = s.requests.tail) ∧
    (t.busProbe = s.busProbe ∨ t.busProbe = none)

/-- R49, R130: the frame all thirteen bus transactions share: the array, the configuration, the cache, the sequencer, the
response and the model's own command list and test port (log entries 3 and 6) are unchanged, and exactly one transaction is
appended to HISTORY. -/
def Obligations.BusTransactionFrame : Prop :=
  ∀ (i : Instr) (s t : State), commandOf i = none → exec i s = .next t →
    t.cfg = s.cfg ∧ t.array = s.array ∧ (∀ o, t.byteAt o = s.byteAt o) ∧ t.chipSizeCache = s.chipSizeCache ∧
    t.seq = s.seq ∧ t.resp = s.resp ∧ t.requests = s.requests ∧ t.busProbe = s.busProbe ∧ t.fault = none ∧ t.refused = none ∧
    ∃ d o v, t.history = s.history ++ [.bus d o v]

/-- R49: no step of the sequencer, of any command, changes a byte of the array: only the completion step does. -/
def Obligations.SequencerNeverProgramsArray : Prop :=
  ∀ (s : State) (o : Nat), (sequencerTurn s).array = s.array ∧ (sequencerTurn s).byteAt o = s.byteAt o

/-! ### SR, CR and KEYR (40_register_bus.md) -/

/-- R132: what SR_RD returns, bit by bit; nothing but HISTORY changes. -/
def Obligations.StatusReadReturnsFlagsAndBusy : Prop :=
  ∀ s : State, s.live = true → ∃ w : Word,
    exec .srRd s = .next { s with history := s.history ++ [.bus 0x08000010 0x10 (some w)] } ∧
    ∀ i < 32, w.getLsbD i =
      if i < 10 then s.flags.getLsbD i else if i = 15 then s.flags.getLsbD 10
      else if i = 16 then decide (s.op ≠ .none) else false

/-- R133: SR_WR clears exactly the flags written 1; the clear pattern clears every flag, and a write without a flag bit
changes nothing. -/
def Obligations.StatusWriteClearsFlags : Prop :=
  ∀ (s : State) (v : Word), s.live = true → ∃ f : BitVec 11,
    exec (.srWr v) s = .next { s with flags := f, history := s.history ++ [.bus 0x88000010 0x10 (some v)] } ∧
    (∀ i < 10, f.getLsbD i = (s.flags.getLsbD i && !v.getLsbD i)) ∧
    f.getLsbD 10 = (s.flags.getLsbD 10 && !v.getLsbD 15) ∧
    (v = 0x000083FF → f = 0) ∧ (v &&& 0x000083FF = 0 → f = s.flags)

/-- R134: what CR_RD returns, bit by bit; nothing but HISTORY changes. -/
def Obligations.ControlReadReturnsFields : Prop :=
  ∀ s : State, s.live = true → ∃ w : Word,
    exec .crRd s = .next { s with history := s.history ++ [.bus 0x08000014 0x14 (some w)] } ∧
    ∀ i < 32, w.getLsbD i =
      if i = 0 then s.pg else if i = 1 then s.per else if 3 ≤ i ∧ i ≤ 8 then s.pnb.getLsbD (i - 3)
      else if i = 16 then s.op.isErase else if i = 31 then s.lock else false

/-- R135: a CR write while CR.LOCK = 1 is ignored entirely. -/
def Obligations.ControlWriteIgnoredWhileLocked : Prop :=
  ∀ (s : State) (v : Word), s.live = true → s.lock = true →
    exec (.crWr v) s = .next { s with history := s.history ++ [.bus 0x88000014 0x14 (some v)] }

/-- R136, R137, R138, R141: a CR write while unlocked that starts nothing (STRT written 0, or busy, or LOCK written 1, or PER
written 0) takes PG, PER, PNB, and LOCK if written 1; it clears the latch if PG is written 0, and aborts the operation whose
mode bit it clears. -/
def Obligations.ControlWriteTakesFields : Prop :=
  ∀ (s : State) (v : Word), s.live = true → s.lock = false →
    (v.getLsbD 16 = false ∨ s.op ≠ .none ∨ v.getLsbD 31 = true ∨ v.getLsbD 1 = false) →
    exec (.crWr v) s = .next
      { s with
        history := s.history ++ [.bus 0x88000014 0x14 (some v)]
        aborted := s.aborted || (s.op.isErase && s.per && !v.getLsbD 1) || (s.op.isProgram && s.pg && !v.getLsbD 0)
        pg := v.getLsbD 0
        per := v.getLsbD 1
        pnb := v.extractLsb' 3 6
        latch := if v.getLsbD 0 then s.latch else none
        lock := v.getLsbD 31 }

/-- R137: clearing the mode bit of the operation in flight sets ABORTED and does not stop the operation. -/
def Obligations.ClearingModeBitAborts : Prop :=
  ∀ (s : State) (v : Word), s.live = true → s.lock = false →
    (s.op.isErase = true ∧ s.per = true ∧ v.getLsbD 1 = false ∨ s.op.isProgram = true ∧ s.pg = true ∧ v.getLsbD 0 = false) →
    ∃ t, exec (.crWr v) s = .next t ∧ t.aborted = true ∧ t.op = s.op ∧ t.bsy = true ∧
      t.per = v.getLsbD 1 ∧ t.pg = v.getLsbD 0

/-- R138: STRT written 1 with PER = 1 and PG = 0, unlocked, idle and with no flag set, starts the erase of page PNB in this
transaction. -/
def Obligations.StartBitStartsErase : Prop :=
  ∀ (s : State) (v : Word), s.live = true → s.lock = false → s.op = .none → s.flags = 0 →
    v.getLsbD 16 = true → v.getLsbD 31 = false → v.getLsbD 1 = true → v.getLsbD 0 = false →
    ((v.extractLsb' 3 6).toNat + 1) * s.cfg.page ≤ s.cfg.arraySize →
    exec (.crWr v) s = .next
      { s with
        history := s.history ++ [.bus 0x88000014 0x14 (some v)]
        pg := false
        per := true
        pnb := v.extractLsb' 3 6
        latch := none
        op := .erase (v.extractLsb' 3 6)
        aborted := false }

/-- R139, R162, R130, and log entries 5 (DEDUCED: the fields of R136 are written first) and 11 (DEDUCED: the HISTORY entry of a
refused access): a start with both mode bits is refused with BothModes, and an erase start of a page that is not whole with
EraseOutsideArray. -/
def Obligations.StartWithoutMeaningStops : Prop :=
  ∀ (s : State) (v : Word), s.live = true → s.lock = false → s.op = .none →
    v.getLsbD 16 = true → v.getLsbD 31 = false → v.getLsbD 1 = true →
    (v.getLsbD 0 = true →
      exec (.crWr v) s = .refused (.recorded .bothModes
        { s with
          history := s.history ++ [.bus 0x88000014 0x14 (some v)]
          pg := true
          per := true
          pnb := v.extractLsb' 3 6
          refused := some .bothModes })) ∧
    (v.getLsbD 0 = false → s.cfg.arraySize < ((v.extractLsb' 3 6).toNat + 1) * s.cfg.page →
      exec (.crWr v) s = .refused (.recorded .eraseOutsideArray
        { s with
          history := s.history ++ [.bus 0x88000014 0x14 (some v)]
          pg := false
          per := true
          pnb := v.extractLsb' 3 6
          latch := none
          refused := some .eraseOutsideArray }))

/-- R140: an erase or a program started while a status flag is set starts or does not start, as a draw; if it does not,
nothing else changes, but that the latch of a program is cleared. -/
def Obligations.StartWithFlagsIsADraw : Prop :=
  (∀ (s : State) (v : Word), s.live = true → s.lock = false → s.op = .none → s.flags ≠ 0 →
    v.getLsbD 16 = true → v.getLsbD 31 = false → v.getLsbD 1 = true → v.getLsbD 0 = false →
    ((v.extractLsb' 3 6).toNat + 1) * s.cfg.page ≤ s.cfg.arraySize →
    exec (.crWr v) s = .next
      { s.afterDraws 1 with
        history := s.history ++ [.bus 0x88000014 0x14 (some v)]
        pg := false
        per := true
        pnb := v.extractLsb' 3 6
        latch := none
        op := if drawBit (s.drawAt 0) then .erase (v.extractLsb' 3 6) else .none
        aborted := if drawBit (s.drawAt 0) then false else s.aborted }) ∧
  (∀ (s : State) (a : BitVec 26) (o : Nat) (lo hi : Word), s.live = true → s.lock = false → s.op = .none → s.flags ≠ 0 →
    s.pg = true → s.latch = some ⟨o, lo⟩ → a.toNat = o + 4 → o % 8 = 0 → o + 8 ≤ s.cfg.arraySize →
    exec (.arrWr32 a hi) s = .next
      { s.afterDraws 1 with
        history := s.history ++ [.bus (0x98000000 ||| a.setWidth 32) a.toNat (some hi)]
        latch := none
        op := if drawBit (s.drawAt 0) then .program o lo hi else .none
        aborted := if drawBit (s.drawAt 0) then false else s.aborted })

/-- R142, R143: the handshake, one key write at a time: ignored while unlocked or frozen; KEY1 in Expect1 advances to Expect2; KEY2
in Expect2 unlocks and goes back to Expect1; any other key leaves the block locked and the stage at Expect1 or Frozen, as
BAD_KEY_POLICY says; nothing else changes but HISTORY. -/
def Obligations.KeyWriteRunsHandshake : Prop :=
  ∀ (s : State) (v : Word), s.live = true → ∃ (ks : KeyStage) (l : Bool),
    exec (.keyrWr v) s = .next
      { s with history := s.history ++ [.bus 0x88000008 0x8 (some v)], keyStage := ks, lock := l } ∧
    (s.lock = false → ks = s.keyStage ∧ l = false) ∧
    (s.lock = true → s.keyStage = .frozen → ks = .frozen ∧ l = true) ∧
    (s.lock = true → s.keyStage = .expect1 → v = s.cfg.key1 → ks = .expect2 ∧ l = true) ∧
    (s.lock = true → s.keyStage = .expect2 → v = s.cfg.key2 → ks = .expect1 ∧ l = false) ∧
    (s.lock = true → (s.keyStage = .expect1 ∧ v ≠ s.cfg.key1 ∨ s.keyStage = .expect2 ∧ v ≠ s.cfg.key2) →
      l = true ∧ (s.cfg.badKeyPolicy = .ignore → ks = .expect1) ∧ (s.cfg.badKeyPolicy = .lockUntilReset → ks = .frozen))

/-- R144: KEYR_RD returns a draw and changes nothing; the value is free. -/
def Obligations.KeyReadReturnsADraw : Prop :=
  ∀ s : State, s.live = true →
    exec .keyrRd s = .next
      { s.afterDraws 1 with history := s.history ++ [.bus 0x08000008 0x8 (some (s.drawAt 0))] }

/-- R145, R31, R42, R130, R131, and log entry 11 (DEDUCED: the HISTORY entry of a refused access, a read's with no value): every
access to ACR and OPTR is refused with UnmodelledRegister; only REFUSED and HISTORY change. -/
def Obligations.UnmodelledRegistersStop : Prop :=
  ∀ (s : State) (v : Word), s.live = true →
    exec .acrRd s = .refused (.recorded .unmodelledRegister
      { s with history := s.history ++ [.bus 0x08000000 0x0 none], refused := some .unmodelledRegister }) ∧
    exec (.acrWr v) s = .refused (.recorded .unmodelledRegister
      { s with history := s.history ++ [.bus 0x88000000 0x0 (some v)], refused := some .unmodelledRegister }) ∧
    exec .optrRd s = .refused (.recorded .unmodelledRegister
      { s with history := s.history ++ [.bus 0x08000020 0x20 none], refused := some .unmodelledRegister }) ∧
    exec (.optrWr v) s = .refused (.recorded .unmodelledRegister
      { s with history := s.history ++ [.bus 0x88000020 0x20 (some v)], refused := some .unmodelledRegister })

/-- R146: FUSE_RD16 returns FUSE_VALUE and changes nothing; it cannot fail. -/
def Obligations.FuseReadReturnsCapacity : Prop :=
  ∀ s : State, s.live = true →
    exec .fuseRd16 s = .next
      { s with history := s.history ++ [.bus 0x24000000 0x0 (some (s.cfg.fuseValue.setWidth 32))] }

/-! ### The array on the bus -/

/-- R147: an array read inside the array while idle returns the byte and changes nothing. -/
def Obligations.ArrayReadReturnsByte : Prop :=
  ∀ (s : State) (o : BitVec 26), s.live = true → o.toNat < s.cfg.arraySize → s.op = .none →
    exec (.arrRd8 o) s = .next
      { s with history := s.history ++
          [.bus (0x10000000 ||| o.setWidth 32) o.toNat (some ((s.byteAt o.toNat).setWidth 32))] }

/-- R148: an array read inside the array while an operation is in flight returns a draw and changes nothing, at every
offset; the byte is free. -/
def Obligations.ArrayReadWhileBusyIsADraw : Prop :=
  ∀ (s : State) (o : BitVec 26), s.live = true → o.toNat < s.cfg.arraySize → s.op ≠ .none →
    exec (.arrRd8 o) s = .next
      { s.afterDraws 1 with history := s.history ++
          [.bus (0x10000000 ||| o.setWidth 32) o.toNat (some (((s.drawAt 0).setWidth 8).setWidth 32))] }

/-- R149, R153, R154, R130, R131, and log entry 11 (DEDUCED: the HISTORY entry of a refused access, a read's with no value): the
array accesses that are refused, each with its reason; only REFUSED and HISTORY change. -/
def Obligations.ArrayAccessWithoutMeaningStops : Prop :=
  (∀ (s : State) (o : BitVec 26), s.live = true → s.cfg.arraySize ≤ o.toNat →
    exec (.arrRd8 o) s = .refused (.recorded .arrayRange
      { s with
        history := s.history ++ [.bus (0x10000000 ||| o.setWidth 32) o.toNat none]
        refused := some .arrayRange })) ∧
  (∀ (s : State) (o : BitVec 26) (w : Word), s.live = true → (o.toNat % 4 ≠ 0 ∨ s.cfg.arraySize < o.toNat + 4) →
    exec (.arrWr32 o w) s = .refused (.recorded .arrayRange
      { s with
        history := s.history ++ [.bus (0x98000000 ||| o.setWidth 32) o.toNat (some w)]
        refused := some .arrayRange })) ∧
  (∀ (s : State) (o : BitVec 26) (w : Word), s.live = true → o.toNat % 4 = 0 → o.toNat + 4 ≤ s.cfg.arraySize →
    s.pg = true → (s.lock = true ∨ s.op ≠ .none) →
    exec (.arrWr32 o w) s = .refused (.recorded .armedButBlocked
      { s with
        history := s.history ++ [.bus (0x98000000 ||| o.setWidth 32) o.toNat (some w)]
        refused := some .armedButBlocked })) ∧
  (∀ (s : State) (o : BitVec 26) (w : Word), s.live = true → o.toNat % 8 = 4 → o.toNat + 4 ≤ s.cfg.arraySize →
    s.pg = true → s.lock = false → s.op = .none → (∀ l, s.latch = some l → l.offset + 4 ≠ o.toNat) →
    exec (.arrWr32 o w) s = .refused (.recorded .unpairedHighWord
      { s with
        history := s.history ++ [.bus (0x98000000 ||| o.setWidth 32) o.toNat (some w)]
        refused := some .unpairedHighWord }))

/-- R150: the low word of a double-word, armed, unlocked and idle, is latched, in place of an earlier one; nothing is
programmed. -/
def Obligations.LowWordIsLatched : Prop :=
  ∀ (s : State) (o : BitVec 26) (w : Word), s.live = true → s.pg = true → s.lock = false → s.op = .none →
    o.toNat % 8 = 0 → o.toNat + 4 ≤ s.cfg.arraySize →
    exec (.arrWr32 o w) s = .next
      { s with
        history := s.history ++ [.bus (0x98000000 ||| o.setWidth 32) o.toNat (some w)]
        latch := some ⟨o.toNat, w⟩ }

/-- R151: the high word after its low word clears the latch and starts the program in this transaction, if no status flag is
set. -/
def Obligations.HighWordStartsProgram : Prop :=
  ∀ (s : State) (a : BitVec 26) (o : Nat) (lo hi : Word), s.live = true → s.pg = true → s.lock = false → s.op = .none →
    s.flags = 0 → s.latch = some ⟨o, lo⟩ → a.toNat = o + 4 → o % 8 = 0 → o + 8 ≤ s.cfg.arraySize →
    exec (.arrWr32 a hi) s = .next
      { s with
        history := s.history ++ [.bus (0x98000000 ||| a.setWidth 32) a.toNat (some hi)]
        latch := none
        op := .program o lo hi
        aborted := false }

/-- R152, R130, and log entry 11 (DEDUCED: the HISTORY entry of a faulting access): an array write with PG = 0: under Ignore only the
flags change, to a draw, and HISTORY; under BusFault the fault is recorded and the machine stops. -/
def Obligations.UnarmedWriteFollowsPolicy : Prop :=
  ∀ (s : State) (o : BitVec 26) (w : Word), s.live = true → s.pg = false → o.toNat % 4 = 0 →
    o.toNat + 4 ≤ s.cfg.arraySize →
    (s.cfg.unarmedWritePolicy = .ignore → ∃ f : BitVec 11,
      exec (.arrWr32 o w) s = .next
        { s.afterDraws 1 with
          history := s.history ++ [.bus (0x98000000 ||| o.setWidth 32) o.toNat (some w)]
          flags := f } ∧
      (∀ i < 10, f.getLsbD i = (s.drawAt 0).getLsbD i) ∧ f.getLsbD 10 = (s.drawAt 0).getLsbD 15) ∧
    (s.cfg.unarmedWritePolicy = .busFault →
      exec (.arrWr32 o w) s = .fault (.busFault o.toNat w
        { s with
          history := s.history ++ [.bus (0x98000000 ||| o.setWidth 32) o.toNat (some w)]
          fault := some ⟨o.toNat, w⟩ }))

/-! ### Completion (40_register_bus.md R155 to R161) -/

/-- R156, R161, R58, and log entries 1 (DEDUCED: draw 0 is the choice of completion and draw 1 the flags) and 12 (the HISTORY entry):
at every boundary of a live machine where the completion step happens (the premise on draw 0, D29), completion of an erase that
was not aborted, of an unprotected page: every byte of the page is erased, every other byte and every other field is unchanged,
but for the flags, which are a draw. -/
def Obligations.EraseCompletionErasesPage : Prop :=
  ∀ (s : State) (p : BitVec 6), StateInv s → s.live = true → s.op = .erase p → s.aborted = false →
    p.toNat ∉ s.cfg.wrpPages → drawBit (s.drawAt 0) = true →
    ∃ mem, fsmTurn s =
        { s.afterDraws 2 with
          array := mem
          op := .none
          flags := flagsOfWord (s.drawAt 1)
          history := s.history ++ [.completion (.erase p)] } ∧
      ∀ o, memRead s.cfg.initialByte mem o =
        if p.toNat * s.cfg.page ≤ o ∧ o < (p.toNat + 1) * s.cfg.page then s.cfg.erasedByte else s.byteAt o

/-- R157, R73, R161, R58, and log entries 1 (DEDUCED: draw 0 is the choice of completion and draw 1 the flags) and 12 (the HISTORY
entry): at every boundary of a live machine where the completion step happens (the premise on draw 0, D29), completion of a
program over erased bytes, not aborted, in an unprotected page: the two words lie little endian in the double-word, every other
byte and every other field is unchanged, but for the flags, which are a draw. -/
def Obligations.ProgramCompletionStoresWords : Prop :=
  ∀ (s : State) (o : Nat) (lo hi : Word), StateInv s → s.live = true → s.op = .program o lo hi →
    s.aborted = false → o / s.cfg.page ∉ s.cfg.wrpPages → (∀ i < 8, s.byteAt (o + i) = s.cfg.erasedByte) →
    drawBit (s.drawAt 0) = true →
    ∃ mem, fsmTurn s =
        { s.afterDraws 2 with
          array := mem
          op := .none
          flags := flagsOfWord (s.drawAt 1)
          history := s.history ++ [.completion (.program o lo hi)] } ∧
      (∀ i < 4, memRead s.cfg.initialByte mem (o + i) = lo.extractLsb' (8 * i) 8) ∧
      (∀ i < 4, memRead s.cfg.initialByte mem (o + 4 + i) = hi.extractLsb' (8 * i) 8) ∧
      ∀ x, (x < o ∨ o + 8 ≤ x) → memRead s.cfg.initialByte mem x = s.byteAt x

/-- R158, R159, R161, and log entry 1 (DEDUCED: after the choice of completion, draw 1 + i is byte i of the target): at every boundary
of a live machine where the completion step happens (the premise on draw 0, D29), completion of an aborted operation, or of a
program over a byte that is not erased, in an unprotected page: each byte of the target is a draw of its own, every byte outside
it and the control fields, the latch, the key stage and the sequencer are unchanged. The bytes are free. -/
def Obligations.DisturbedCompletionDrawsTarget : Prop :=
  ∀ (s : State) (start size : Nat), StateInv s → s.live = true → drawBit (s.drawAt 0) = true →
    ((∃ p, s.op = .erase p ∧ s.aborted = true ∧ p.toNat ∉ s.cfg.wrpPages ∧
        start = p.toNat * s.cfg.page ∧ size = s.cfg.page) ∨
     (∃ lo hi, s.op = .program start lo hi ∧ size = 8 ∧ start / s.cfg.page ∉ s.cfg.wrpPages ∧
        (s.aborted = true ∨ ∃ i < 8, s.byteAt (start + i) ≠ s.cfg.erasedByte))) →
    (∀ i < size, (fsmTurn s).byteAt (start + i) = (s.drawAt (1 + i)).setWidth 8) ∧
    (∀ x, (x < start ∨ start + size ≤ x) → (fsmTurn s).byteAt x = s.byteAt x) ∧
    (fsmTurn s).op = .none ∧ (fsmTurn s).aborted = false ∧ (fsmTurn s).pg = s.pg ∧ (fsmTurn s).per = s.per ∧
    (fsmTurn s).pnb = s.pnb ∧ (fsmTurn s).lock = s.lock ∧ (fsmTurn s).latch = s.latch ∧
    (fsmTurn s).keyStage = s.keyStage ∧ (fsmTurn s).seq = s.seq

/-- R160: at every boundary of a live machine where the completion step happens (the premise on draw 0, D29), completion of an
operation on a protected page changes no byte, whether or not it was aborted. -/
def Obligations.ProtectedPageIsUnchanged : Prop :=
  ∀ (s : State), s.live = true → drawBit (s.drawAt 0) = true →
    ((∃ p, s.op = .erase p ∧ p.toNat ∈ s.cfg.wrpPages) ∨
     (∃ o lo hi, s.op = .program o lo hi ∧ o / s.cfg.page ∈ s.cfg.wrpPages)) →
    (fsmTurn s).array = s.array ∧ (∀ o, (fsmTurn s).byteAt o = s.byteAt o) ∧
    (fsmTurn s).op = .none ∧ (fsmTurn s).aborted = false

/-! ### INIT, UNLOCK, LOCK, PAGESIZE, CHIPSIZE -/

/-- R200, R174: INIT reads the fuse if the cache is 0, caches the capacity, and always answers OK; nothing else changes. -/
def Obligations.InitCachesCapacity : Prop :=
  ∀ s : State, Ready s → exec .init s = .next { s.discovered with resp := some ⟨.ok, 0, []⟩ }

/-- R201: UNLOCK always answers OK; from Expect1 or unlocked it leaves the block unlocked, from Frozen or Expect2 locked it
leaves it locked; nothing else changes while no operation is in flight. -/
def Obligations.UnlockRunsKeySequence : Prop :=
  ∀ s : State, Ready s → ∃ t, exec .unlock s = .next t ∧ t.resp = some ⟨.ok, 0, []⟩ ∧ t.seq = .idle ∧
    (s.lock = true → s.keyStage = .expect1 → t.lock = false ∧ t.keyStage = .expect1) ∧
    (s.lock = false → t.lock = false ∧ t.keyStage = s.keyStage) ∧
    (s.lock = true → s.keyStage = .frozen → t.lock = true ∧ t.keyStage = .frozen) ∧
    (s.lock = true → s.keyStage = .expect2 → s.cfg.key1 ≠ s.cfg.key2 → t.lock = true) ∧
    t.pg = s.pg ∧ t.per = s.per ∧ t.pnb = s.pnb ∧ t.latch = s.latch ∧ t.chipSizeCache = s.chipSizeCache ∧
    (s.op = .none → t =
      { s with
        lock := t.lock
        keyStage := t.keyStage
        resp := some ⟨.ok, 0, []⟩
        history := s.history ++ [.bus 0x88000008 0x8 (some s.cfg.key1), .bus 0x88000008 0x8 (some s.cfg.key2)] })

/-- R202: LOCK always answers OK and leaves CR.LOCK = 1, with the other CR fields and the key stage unchanged; nothing else
changes while no operation is in flight, but that the latch is cleared where the CR write takes effect with PG = 0 (R136). -/
def Obligations.LockSetsLockBit : Prop :=
  ∀ s : State, Ready s → ∃ t, exec .lock s = .next t ∧ t.resp = some ⟨.ok, 0, []⟩ ∧ t.seq = .idle ∧ t.lock = true ∧
    t.pg = s.pg ∧ t.per = s.per ∧ t.pnb = s.pnb ∧ t.keyStage = s.keyStage ∧ t.chipSizeCache = s.chipSizeCache ∧
    (s.op = .none → t =
      { s with
        lock := true
        latch := if s.lock || s.pg then s.latch else none
        resp := some ⟨.ok, 0, []⟩
        history := s.history ++
          [.bus 0x08000014 0x14 (some s.crWord), .bus 0x88000014 0x14 (some (s.crWord ||| 0x80000000))] })

/-- R231, R232: PAGESIZE answers PAGE_SIZE and CHIPSIZE the cached chip size; no transaction, no discovery, no other change. -/
def Obligations.AccessorsAnswer : Prop :=
  ∀ s : State, Ready s →
    exec .pageSize s = .next { s with resp := some ⟨.ok, s.cfg.pageSize, []⟩ } ∧
    exec .chipSize s = .next { s with resp := some ⟨.ok, s.chipSizeCache, []⟩ }

/-! ### READ -/

/-- R230, R148: READ of a span inside the array, with a buffer, issues one ARR_RD8 per byte in ascending order and answers OK with
the bytes. With no operation in flight the bytes are the array's, and nothing else changes but the cache. With an operation in
flight each byte read before its completion step is a draw of its own (a free value), and the bytes read after it are the
array's: the second clause is the copy with no completion step, the third the copy with the completion step before byte m. That
byte i takes draw 2i (one later if the fuse is read) and each boundary the draw before it is log entry 1 (DEDUCED). -/
def Obligations.ReadCopiesArray : Prop :=
  (∀ (s : State) (a b : Word), Quiet s → s.cacheOk = true → a.toNat < s.capacity → a.toNat + b.toNat ≤ s.capacity →
    exec (.read a b true) s = .next
      { s.discovered with
        history := s.discovered.history ++ (List.range b.toNat).map fun i =>
          .bus (0x10000000 ||| BitVec.ofNat 32 (a.toNat + i)) (a.toNat + i) (some ((s.byteAt (a.toNat + i)).setWidth 32))
        resp := some ⟨.ok, b, (List.range b.toNat).map fun i => s.byteAt (a.toNat + i)⟩ }) ∧
  (∀ (s : State) (a b : Word), Ready s → s.op ≠ .none → s.cacheOk = true → b ≠ 0 → a.toNat + b.toNat ≤ s.capacity →
    (∀ i < b.toNat, i + s.discoverDraws ≠ 0 → drawBit (s.drawAt (2 * i + s.discoverDraws - 1)) = false) →
    exec (.read a b true) s = .next
      { s.discovered.afterDraws (2 * b.toNat - 1 + s.discoverDraws) with
        history := s.discovered.history ++ (List.range b.toNat).map fun i =>
          .bus (0x10000000 ||| BitVec.ofNat 32 (a.toNat + i)) (a.toNat + i)
            (some ((drawByte (s.drawAt (2 * i + s.discoverDraws))).setWidth 32))
        resp := some ⟨.ok, b, (List.range b.toNat).map fun i => drawByte (s.drawAt (2 * i + s.discoverDraws))⟩ }) ∧
  (∀ (s : State) (a b : Word) (m : Nat), Ready s → s.op ≠ .none → s.cacheOk = true → a.toNat + b.toNat ≤ s.capacity →
    m < b.toNat → m + s.discoverDraws ≠ 0 →
    (∀ i < m, i + s.discoverDraws ≠ 0 → drawBit (s.drawAt (2 * i + s.discoverDraws - 1)) = false) →
    drawBit (s.drawAt (2 * m + s.discoverDraws - 1)) = true →
    ∃ t, exec (.read a b true) s = .next t ∧ t.seq = .idle ∧ t.op = .none ∧
      t.resp = some ⟨.ok, b, ((List.range m).map fun i => drawByte (s.drawAt (2 * i + s.discoverDraws))) ++
        (List.range (b.toNat - m)).map fun i => t.byteAt (a.toNat + (m + i))⟩)

/-! ### Argument errors and empty commands -/

/-- R241, R244, R175: the argument errors of ERASE, WRITE and READ before any register access: INVALID_ARGUMENT, and nothing
changes but that the capacity is discovered. -/
def Obligations.ArgumentErrorsChangeNothing : Prop :=
  ∀ s : State, Ready s →
    (∀ a b : Word, ¬(a.toNat / s.cfg.page * s.cfg.page < s.capacity ∧
        a.toNat / s.cfg.page * s.cfg.page + b.toNat * s.cfg.page ≤ s.capacity) →
      exec (.erase a b) s = .next { s.discovered with resp := some ⟨.invalidArgument, 0, []⟩ }) ∧
    (∀ a : Word, exec (.write a none) s = .next { s.discovered with resp := some ⟨.invalidArgument, 0, []⟩ }) ∧
    (∀ (a : Word) (d : List Byte),
      ((s.cfg.flashBase.toNat + a.toNat) % 8 ≠ 0 ∨ ¬(a.toNat < s.capacity ∧ a.toNat + d.length ≤ s.capacity)) →
      exec (.write a (some d)) s = .next { s.discovered with resp := some ⟨.invalidArgument, 0, []⟩ }) ∧
    (∀ (a b : Word) (buffer : Bool),
      (buffer = false ∨ ¬(a.toNat < s.capacity ∧ a.toNat + b.toNat ≤ s.capacity)) →
      exec (.read a b buffer) s = .next { s.discovered with resp := some ⟨.invalidArgument, 0, []⟩ })

/-- R179, R241, R175: an ERASE or WRITE with good arguments while SR.BSY = 1 discovers the capacity, reads SR once and answers
INVALID_ARGUMENT; nothing else changes. The premise on the draw is that the completion step does not come after the fuse read, if
there is one (log entry 1). -/
def Obligations.BusyBlockRefusesEraseAndWrite : Prop :=
  ∀ s : State, Ready s → s.op ≠ .none → (s.chipSizeCache = 0 → drawBit (s.drawAt 0) = false) →
    (∀ a b : Word, a.toNat / s.cfg.page * s.cfg.page < s.capacity →
      a.toNat / s.cfg.page * s.cfg.page + b.toNat * s.cfg.page ≤ s.capacity → s.cacheOk = true →
      exec (.erase a b) s = .next
        { s.discovered.afterDraws s.discoverDraws with
          history := s.discovered.history ++ [.bus 0x08000010 0x10 (some s.srWord)]
          resp := some ⟨.invalidArgument, 0, []⟩ }) ∧
    (∀ (a : Word) (d : List Byte), (s.cfg.flashBase.toNat + a.toNat) % 8 = 0 → a.toNat < s.capacity →
      a.toNat + d.length ≤ s.capacity → s.cacheOk = true →
      exec (.write a (some d)) s = .next
        { s.discovered.afterDraws s.discoverDraws with
          history := s.discovered.history ++ [.bus 0x08000010 0x10 (some s.srWord)]
          resp := some ⟨.invalidArgument, 0, []⟩ })

/-- R210, R220: ERASE of no page and WRITE of no byte, at an offset inside the array and with no operation in flight: one SR
read, OK with VALUE 0, and nothing else changes. -/
def Obligations.EmptyEraseAndWriteAnswerOk : Prop :=
  ∀ (s : State) (a : Word), Quiet s → 
    (a.toNat / s.cfg.page * s.cfg.page < s.capacity →
      exec (.erase a 0) s = .next
        { s.discovered with
          history := s.discovered.history ++ [.bus 0x08000010 0x10 (some s.srWord)]
          resp := some ⟨.ok, 0, []⟩ }) ∧
    ((s.cfg.flashBase.toNat + a.toNat) % 8 = 0 → a.toNat < s.capacity →
      exec (.write a (some [])) s = .next
        { s.discovered with
          history := s.discovered.history ++ [.bus 0x08000010 0x10 (some s.srWord)]
          resp := some ⟨.ok, 0, []⟩ })

/-! ### ERASE and WRITE -/

/-- R210, R160: ERASE on an unlocked, idle block with PG = 0, the page index in six bits, and the completion step of page i at the
boundary before its poll read number `waits i + 1`, within the budget (the premise on the draws, D29 and log entry 1): it answers
OK, every byte of the requested pages that are not protected is erased, every other byte is unchanged, PER is 0 afterwards, PNB
names the last page, and the lock, the key stage and PG are unchanged. -/
def Obligations.EraseErasesRequestedPages : Prop :=
  ∀ (s : State) (a b : Word) (waits : Nat → Nat), StateInv s → Quiet s → s.lock = false → s.pg = false → b ≠ 0 →
    a.toNat / s.cfg.page * s.cfg.page + b.toNat * s.cfg.page ≤ s.capacity →
    a.toNat / s.cfg.page + b.toNat ≤ 64 →
    (∀ i < b.toNat, waits i < s.cfg.eraseTimeout.toNat ∧ s.completesAfter (unitDraw waits i) (waits i) = true) →
    ∃ t, exec (.erase a b) s = .next t ∧ t.resp = some ⟨.ok, 0, []⟩ ∧ t.seq = .idle ∧
      (∀ o, t.byteAt o =
        if a.toNat / s.cfg.page * s.cfg.page ≤ o ∧ o < a.toNat / s.cfg.page * s.cfg.page + b.toNat * s.cfg.page ∧
          o / s.cfg.page ∉ s.cfg.wrpPages
        then s.cfg.erasedByte else s.byteAt o) ∧
      t.op = .none ∧ t.aborted = false ∧ t.flags = 0 ∧ t.per = false ∧ t.pg = false ∧ t.lock = false ∧
      t.keyStage = s.keyStage ∧ t.latch = none ∧ t.pnb.toNat = a.toNat / s.cfg.page + b.toNat - 1 ∧
      t.cfg = s.cfg ∧ t.chipSizeCache = s.discovered.chipSizeCache ∧ t.requests = s.requests

/-- R220, R221, R157, R158, R160: WRITE on an unlocked, idle block, with the completion step of double-word i at the boundary before
its poll read number `waits i + 1`, within the budget (the premise on the draws, D29): it answers OK with the padded length, the
data lie in the array in order, each pad byte is a draw of its own (a free value), a protected page and every other byte are
unchanged, PG is 0 afterwards and the latch empty, and the lock, the key stage, PER and PNB are unchanged. The first clause is over
erased bytes. The second is over any bytes: OK all the same, but each of the eight bytes of a double-word in an unprotected page
with a byte that is not erased is a draw of its own. Which draw a byte takes (a double-word's pad bytes before those of its
completion) is log entry 1 (DEDUCED). -/
def Obligations.WriteProgramsData : Prop :=
  (∀ (s : State) (a : Word) (d : List Byte) (waits : Nat → Nat), StateInv s → Quiet s → s.lock = false →
    d ≠ [] → a.toNat % 8 = 0 → a.toNat + d.length ≤ s.capacity →
    (∀ i < ceil8 d.length, s.byteAt (a.toNat + i) = s.cfg.erasedByte) →
    (∀ i < doubleWords d.length, waits i < s.cfg.progTimeout.toNat ∧
      s.completesAfter (unitDraw waits i + padCount d i) (waits i) = true) →
    ∃ t, exec (.write a (some d)) s = .next t ∧
      t.resp = some ⟨.ok, BitVec.ofNat 32 (ceil8 d.length), []⟩ ∧ t.seq = .idle ∧
      (∀ i < ceil8 d.length, t.byteAt (a.toNat + i) =
        if (a.toNat + i) / s.cfg.page ∈ s.cfg.wrpPages then s.byteAt (a.toNat + i)
        else if i < d.length then d.getD i 0
        else drawByte (s.drawAt (unitDraw waits (d.length / 8) + (i - d.length)))) ∧
      (∀ o, (o < a.toNat ∨ a.toNat + ceil8 d.length ≤ o) → t.byteAt o = s.byteAt o) ∧
      t.op = .none ∧ t.aborted = false ∧ t.flags = 0 ∧ t.pg = false ∧ t.latch = none ∧ t.per = s.per ∧ t.pnb = s.pnb ∧
      t.lock = false ∧ t.keyStage = s.keyStage ∧ t.cfg = s.cfg ∧ t.chipSizeCache = s.discovered.chipSizeCache ∧
      t.requests = s.requests) ∧
  (∀ (s : State) (a : Word) (d : List Byte) (waits : Nat → Nat), StateInv s → Quiet s → s.lock = false →
    d ≠ [] → a.toNat % 8 = 0 → a.toNat + d.length ≤ s.capacity →
    (∀ i < doubleWords d.length, waits i < s.cfg.progTimeout.toNat ∧
      s.completesAfter (s.writeDraw a.toNat waits i + padCount d i) (waits i) = true) →
    ∃ t, exec (.write a (some d)) s = .next t ∧
      t.resp = some ⟨.ok, BitVec.ofNat 32 (ceil8 d.length), []⟩ ∧ t.seq = .idle ∧
      (∀ i < doubleWords d.length, ∀ j < 8, t.byteAt (a.toNat + 8 * i + j) =
        if (a.toNat + 8 * i) / s.cfg.page ∈ s.cfg.wrpPages then s.byteAt (a.toNat + 8 * i + j)
        else if ∃ k < 8, s.byteAt (a.toNat + 8 * i + k) ≠ s.cfg.erasedByte then
          drawByte (s.drawAt (s.writeDraw a.toNat waits i + padCount d i + waits i + 1 + j))
        else if 8 * i + j < d.length then d.getD (8 * i + j) 0
        else drawByte (s.drawAt (s.writeDraw a.toNat waits i + (8 * i + j - d.length)))) ∧
      (∀ o, (o < a.toNat ∨ a.toNat + ceil8 d.length ≤ o) → t.byteAt o = s.byteAt o) ∧
      t.op = .none ∧ t.aborted = false ∧ t.flags = 0 ∧ t.pg = false ∧ t.latch = none ∧ t.per = s.per ∧ t.pnb = s.pnb ∧
      t.lock = false ∧ t.keyStage = s.keyStage)

/-- R74, R220, R230 (the round-trip law): WRITE over erased bytes of no protected page, of any length, and then READ of the same
span answers exactly the data. The premise on the draws is that each completion step comes within the budget (D29, log entry 1). -/
def Obligations.WriteThenReadReturnsData : Prop :=
  ∀ (s : State) (a : Word) (d : List Byte) (waits : Nat → Nat), StateInv s → Quiet s → s.lock = false →
    s.cfg.wrpPages = [] → d ≠ [] → a.toNat % 8 = 0 → a.toNat + d.length ≤ s.capacity →
    (∀ i < ceil8 d.length, s.byteAt (a.toNat + i) = s.cfg.erasedByte) →
    (∀ i < doubleWords d.length, waits i < s.cfg.progTimeout.toNat ∧
      s.completesAfter (unitDraw waits i + padCount d i) (waits i) = true) →
    ∃ t u, exec (.write a (some d)) s = .next t ∧ exec (.read a (BitVec.ofNat 32 d.length) true) t = .next u ∧
      u.resp = some ⟨.ok, BitVec.ofNat 32 d.length, d⟩

/-- R211, R177, R212, R137: ERASE whose poll expires. First clause: the pages before page j complete in time, and from page j's start
on SR.BSY is stuck at 1 (the premises on the draws, D29 and log entry 1): after exactly ERASE_TIMEOUT SR reads of that page ERASE
answers TIMEOUT; the pages before it are erased (if not protected), page j's erase is still in flight and aborted with PER
cleared, and every other byte, those of page j and of the later pages among them, is unchanged; for j = 0 the whole transaction
sequence is given. Second clause: with a budget of 0 ERASE, locked or not, answers TIMEOUT with no poll read: its one SR read is
the busy check. -/
def Obligations.EraseTimesOut : Prop :=
  (∀ (s : State) (a b : Word) (j : Nat) (waits : Nat → Nat), StateInv s → Quiet s → s.lock = false → s.pg = false →
    j < b.toNat → a.toNat / s.cfg.page * s.cfg.page + b.toNat * s.cfg.page ≤ s.capacity →
    a.toNat / s.cfg.page + j ≤ 63 →
    (∀ i < j, waits i < s.cfg.eraseTimeout.toNat ∧ s.completesAfter (unitDraw waits i) (waits i) = true) →
    s.waitsFor (unitDraw waits j) (s.cfg.eraseTimeout.toNat + 3) = true →
    ∃ t, exec (.erase a b) s = .next t ∧ t.resp = some ⟨.timeout, 0, []⟩ ∧ t.seq = .idle ∧
      (∀ o, t.byteAt o =
        if a.toNat / s.cfg.page * s.cfg.page ≤ o ∧ o < a.toNat / s.cfg.page * s.cfg.page + j * s.cfg.page ∧
          o / s.cfg.page ∉ s.cfg.wrpPages
        then s.cfg.erasedByte else s.byteAt o) ∧
      t.op = .erase (BitVec.ofNat 6 (a.toNat / s.cfg.page + j)) ∧ t.aborted = true ∧ t.per = false ∧ t.pg = false ∧
      t.pnb.toNat = a.toNat / s.cfg.page + j ∧ t.lock = false ∧ t.keyStage = s.keyStage ∧
      (t.history.filter Event.isBusyRead).length =
        (s.history.filter Event.isBusyRead).length + (unitDraw waits j - 2 * j) + s.cfg.eraseTimeout.toNat ∧
      (j = 0 → t.history = s.discovered.history ++
        [.bus 0x08000010 0x10 (some s.srWord), .bus 0x88000010 0x10 (some 0x000083FF),
         .bus 0x08000014 0x14 (some s.crWord),
         .bus 0x88000014 0x14 (some (0x00010002 ||| BitVec.ofNat 32 (a.toNat / s.cfg.page) <<< 3))] ++
        List.replicate s.cfg.eraseTimeout.toNat (.bus 0x08000010 0x10 (some 0x00010000)) ++
        [.bus 0x88000010 0x10 (some 0x000083FF),
         .bus 0x08000014 0x14 (some (0x00010002 ||| BitVec.ofNat 32 (a.toNat / s.cfg.page) <<< 3)),
         .bus 0x88000014 0x14 (some (0x00010000 ||| BitVec.ofNat 32 (a.toNat / s.cfg.page) <<< 3))])) ∧
  (∀ (s : State) (a b : Word), StateInv s → Quiet s → (s.lock = true ∨ s.pg = false) → s.cfg.eraseTimeout = 0 → b ≠ 0 →
    a.toNat / s.cfg.page * s.cfg.page + b.toNat * s.cfg.page ≤ s.capacity → a.toNat / s.cfg.page ≤ 63 →
    ∃ t, exec (.erase a b) s = .next t ∧ t.resp = some ⟨.timeout, 0, []⟩ ∧ t.seq = .idle ∧
      (t.history.filter Event.isStatusRead).length = (s.history.filter Event.isStatusRead).length + 1 ∧
      (s.lock = false → t.per = false) ∧ (s.lock = true → t.array = s.array ∧ t.op = .none))

/-- R223, R177, R222, R137: WRITE whose poll expires. First clause: the double-words before double-word j, over erased bytes, complete
in time, and from double-word j's start on SR.BSY is stuck at 1 (the premises on the draws, D29; the draws of its pad bytes come
first, log entry 1): after exactly PROG_TIMEOUT SR reads of that double-word WRITE answers TIMEOUT with VALUE 0; the double-words
before it are programmed (if not protected), the program of double-word j is still in flight and aborted with PG cleared, and
every other byte is unchanged. Second clause: with a budget of 0 WRITE, unlocked or (with PG = 0 and the Ignore policy) locked,
answers TIMEOUT with no poll read: its one SR read is the busy check. -/
def Obligations.WriteTimesOut : Prop :=
  (∀ (s : State) (a : Word) (d : List Byte) (j : Nat) (waits : Nat → Nat), StateInv s → Quiet s → s.lock = false →
    j < doubleWords d.length → a.toNat % 8 = 0 → a.toNat + d.length ≤ s.capacity →
    (∀ i < 8 * j, s.byteAt (a.toNat + i) = s.cfg.erasedByte) →
    (∀ i < j, waits i < s.cfg.progTimeout.toNat ∧ s.completesAfter (unitDraw waits i) (waits i) = true) →
    s.waitsFor (unitDraw waits j + padCount d j) (s.cfg.progTimeout.toNat + 3) = true →
    ∃ t, exec (.write a (some d)) s = .next t ∧ t.resp = some ⟨.timeout, 0, []⟩ ∧ t.seq = .idle ∧
      (∀ o, t.byteAt o =
        if a.toNat ≤ o ∧ o < a.toNat + 8 * j ∧ o / s.cfg.page ∉ s.cfg.wrpPages then d.getD (o - a.toNat) 0
        else s.byteAt o) ∧
      (∃ lo hi, t.op = .program (a.toNat + 8 * j) lo hi ∧
        ∀ i < 8, (hi ++ lo).extractLsb' (8 * i) 8 =
          if 8 * j + i < d.length then d.getD (8 * j + i) 0
          else drawByte (s.drawAt (unitDraw waits j + (8 * j + i - d.length)))) ∧
      t.aborted = true ∧ t.pg = false ∧ t.latch = none ∧ t.per = s.per ∧ t.pnb = s.pnb ∧ t.lock = false ∧
      t.keyStage = s.keyStage ∧
      (t.history.filter Event.isBusyRead).length =
        (s.history.filter Event.isBusyRead).length + (unitDraw waits j - 2 * j) + s.cfg.progTimeout.toNat) ∧
  (∀ (s : State) (a : Word) (d : List Byte), StateInv s → Quiet s →
    (s.lock = true → s.pg = false ∧ s.cfg.unarmedWritePolicy = .ignore) → s.cfg.progTimeout = 0 → d ≠ [] →
    a.toNat % 8 = 0 → a.toNat + d.length ≤ s.capacity →
    ∃ t, exec (.write a (some d)) s = .next t ∧ t.resp = some ⟨.timeout, 0, []⟩ ∧ t.seq = .idle ∧
      (t.history.filter Event.isStatusRead).length = (s.history.filter Event.isStatusRead).length + 1 ∧
      (s.lock = false → t.pg = false) ∧ (s.lock = true → t.array = s.array ∧ t.op = .none))

/-- R251, R212, R222: while CR.LOCK = 1 and no operation is in flight, no command but UNLOCK changes a byte of the array, starts
an operation, or changes a CR field, the key stage or the latch. -/
def Obligations.LockedCommandsChangeNothing : Prop :=
  ∀ (i : Instr) (c : Command) (s t : State), commandOf i = some c → c ≠ .unlock → Quiet s → s.lock = true →
    exec i s = .next t →
    t.array = s.array ∧ (∀ o, t.byteAt o = s.byteAt o) ∧ t.op = .none ∧ t.aborted = s.aborted ∧ t.lock = true ∧
    t.pg = s.pg ∧ t.per = s.per ∧ t.pnb = s.pnb ∧ t.keyStage = s.keyStage ∧ t.latch = s.latch

/-- R212, R222: ERASE and WRITE on a locked block with good arguments answer OK (budgets of at least 1) although nothing changed;
under BusFault the first array write of WRITE faults and there is no response. -/
def Obligations.LockedEraseAndWriteAnswerOk : Prop :=
  ∀ s : State, StateInv s → Quiet s → s.lock = true →
    (∀ a b : Word, s.cfg.eraseTimeout ≠ 0 → b ≠ 0 →
      a.toNat / s.cfg.page * s.cfg.page + b.toNat * s.cfg.page ≤ s.capacity → a.toNat / s.cfg.page + b.toNat ≤ 64 →
      ∃ t, exec (.erase a b) s = .next t ∧ t.resp = some ⟨.ok, 0, []⟩ ∧ t.array = s.array) ∧
    (∀ (a : Word) (d : List Byte), s.pg = false → s.cfg.progTimeout ≠ 0 → d ≠ [] → a.toNat % 8 = 0 →
      a.toNat + d.length ≤ s.capacity → s.cfg.unarmedWritePolicy = .ignore →
      ∃ t, exec (.write a (some d)) s = .next t ∧ t.resp = some ⟨.ok, BitVec.ofNat 32 ((d.length + 7) / 8 * 8), []⟩ ∧
        t.array = s.array) ∧
    (∀ (a : Word) (d : List Byte), s.pg = false → d ≠ [] → a.toNat % 8 = 0 → a.toNat + d.length ≤ s.capacity →
      s.cfg.unarmedWritePolicy = .busFault →
      ∃ w final, exec (.write a (some d)) s = .fault (.busFault a.toNat w final) ∧ final.fault = some ⟨a.toNat, w⟩ ∧
        final.seq ≠ .idle ∧ final.resp = s.resp ∧ final.array = s.array)

/-- R183: from an unlocked block with both mode bits 0, ERASE and WRITE leave both mode bits 0, whatever they answer. -/
def Obligations.ModeBitsAreClearAfterwards : Prop :=
  ∀ (s t : State), Ready s → s.lock = false → s.pg = false → s.per = false →
    ((∃ a b, exec (.erase a b) s = .next t) ∨ (∃ a d, exec (.write a d) s = .next t)) →
    t.pg = false ∧ t.per = false

/-- R244: after INVALID_ARGUMENT no register has been written by the command and no write transaction made. -/
def Obligations.InvalidArgumentWritesNothing : Prop :=
  ∀ (i : Instr) (c : Command) (s t : State), commandOf i = some c → Ready s → exec i s = .next t →
    t.resp = some ⟨.invalidArgument, 0, []⟩ →
    t.pg = s.pg ∧ t.per = s.per ∧ t.pnb = s.pnb ∧ t.lock = s.lock ∧ t.keyStage = s.keyStage ∧ t.latch = s.latch ∧
    (s.op = .none → t.array = s.array ∧ t.flags = s.flags ∧ t.op = .none) ∧
    ∃ es, t.history = s.history ++ es ∧ ∀ e ∈ es, e.isWrite = false

/-- R175: INIT, ERASE, WRITE and READ leave the capacity cached, whatever they answer; the other four leave the cache alone. -/
def Obligations.DiscoveryTriggerSet : Prop :=
  ∀ (i : Instr) (c : Command) (s t : State), commandOf i = some c → Ready s → exec i s = .next t →
    ((c = .unlock ∨ c = .lock ∨ c = .pageSize ∨ c = .chipSize) → t.chipSizeCache = s.chipSizeCache) ∧
    (¬(c = .unlock ∨ c = .lock ∨ c = .pageSize ∨ c = .chipSize) → t.chipSizeCache = s.discovered.chipSizeCache)

/-- R173, R181: every command given to a ready machine responds, or faults, or is refused: it never runs on for
ever. -/
def Obligations.EveryCommandEnds : Prop :=
  ∀ (i : Instr) (c : Command) (s : State), commandOf i = some c → Ready s →
    (∃ t, exec i s = .next t ∧ t.seq = .idle ∧ t.resp.isSome = true) ∨
    (∃ o w t, exec i s = .fault (.busFault o w t)) ∨ (∃ why t, exec i s = .refused (.recorded why t))

/-- R8, R172: a command's meaning is its transaction sequence: its outcome, a next state, a fault or a refusal, is that of single
steps of the machine, one transaction each, after the command's first; and with no operation in flight it is that of single steps
from the accepted command on. -/
def Obligations.CommandIsItsTransactions : Prop :=
  ∀ (i : Instr) (c : Command) (s : State), commandOf i = some c →
    (Ready s → ∃ k, exec i s = Host.Core.run Sys2Proof.core k (sequencerTurn (s.accept c))) ∧
    (Quiet s → ∃ k, exec i s = Host.Core.run Sys2Proof.core k (s.accept c))

/-- R213: ERASE of pages inside the capacity that reach above page 63 is refused with PageIndexWidth before the first transaction
for the first page above 63. First clause: the first page is above 63: only discovery and the busy check come before. Second
clause: the range crosses from page 63 into page 64, unlocked with PG = 0 and each completion step in time (the premise on the
draws, D29 and log entry 1): the unprotected pages up to 63 are erased, and the last transaction is the cleanup of page 63, which
leaves 63 in PNB and PER 0. Third clause: the same range while locked, with a budget of at least 1: nothing is erased. There is
no response. -/
def Obligations.WidePageIndexStops : Prop :=
  ∀ (s : State) (a b : Word), StateInv s → Quiet s → b ≠ 0 → 64 < a.toNat / s.cfg.page + b.toNat →
    a.toNat / s.cfg.page * s.cfg.page + b.toNat * s.cfg.page ≤ s.capacity →
    (64 ≤ a.toNat / s.cfg.page →
      ∃ t, exec (.erase a b) s = .refused (.recorded .pageIndexWidth t) ∧ t.refused = some .pageIndexWidth ∧
        t.seq ≠ .idle ∧ t.resp = s.resp ∧ t.array = s.array ∧
        t.history = s.discovered.history ++ [.bus 0x08000010 0x10 (some s.srWord)]) ∧
    (∀ waits : Nat → Nat, a.toNat / s.cfg.page ≤ 63 → s.lock = false → s.pg = false →
      (∀ i < 64 - a.toNat / s.cfg.page, waits i < s.cfg.eraseTimeout.toNat ∧
        s.completesAfter (unitDraw waits i) (waits i) = true) →
      ∃ t, exec (.erase a b) s = .refused (.recorded .pageIndexWidth t) ∧ t.refused = some .pageIndexWidth ∧
        t.seq ≠ .idle ∧ t.resp = s.resp ∧ t.op = .none ∧ t.per = false ∧ t.pnb = 63 ∧
        (∀ o, t.byteAt o =
          if a.toNat / s.cfg.page * s.cfg.page ≤ o ∧ o < 64 * s.cfg.page ∧ o / s.cfg.page ∉ s.cfg.wrpPages
          then s.cfg.erasedByte else s.byteAt o) ∧
        t.history.getLast? = some (.bus 0x88000014 0x14 (some 0x000001F8))) ∧
    (a.toNat / s.cfg.page ≤ 63 → s.lock = true → s.cfg.eraseTimeout ≠ 0 →
      ∃ t, exec (.erase a b) s = .refused (.recorded .pageIndexWidth t) ∧ t.refused = some .pageIndexWidth ∧
        t.seq ≠ .idle ∧ t.resp = s.resp ∧ t.op = .none ∧ t.array = s.array ∧
        t.history.getLast? = some (.bus 0x88000014 0x14 (some (s.crWord &&& ~~~2))))

/-- R139, R210: ERASE on an unlocked, idle block with CR.PG = 1 is refused with BothModes at the start of its first page: the CR
value it writes keeps PG. No byte is changed, no operation starts, and there is no response. -/
def Obligations.EraseInProgramModeStops : Prop :=
  ∀ (s : State) (a b : Word), StateInv s → Quiet s → s.lock = false → s.pg = true → b ≠ 0 → a.toNat / s.cfg.page ≤ 63 →
    a.toNat / s.cfg.page * s.cfg.page + b.toNat * s.cfg.page ≤ s.capacity →
    ∃ t, exec (.erase a b) s = .refused (.recorded .bothModes t) ∧ t.refused = some .bothModes ∧
      t.seq ≠ .idle ∧ t.resp = s.resp ∧ t.array = s.array ∧ t.op = .none
end

