-- ==== Sys2Proof/Laws/Decode.lean ====
section
/-! SUPPORT. The fields of a laid-out descriptor (R109). -/

namespace Sys2Proof

/-- DIR is read back. -/
@[simp] theorem descriptorWrites_descriptor (d : Bool) (s w : BitVec 2) (o : BitVec 26) :
    descriptorWrites (descriptor d s w o) = d := by
  simp [descriptorWrites, descriptor]

/-- Bit 30 is 0. -/
@[simp] theorem descriptorReserved_descriptor (d : Bool) (s w : BitVec 2) (o : BitVec 26) :
    descriptorReserved (descriptor d s w o) = false := by
  simp [descriptorReserved, descriptor]

/-- SPACE is read back. -/
@[simp] theorem descriptorSpace_descriptor (d : Bool) (s w : BitVec 2) (o : BitVec 26) :
    descriptorSpace (descriptor d s w o) = s := by
  unfold descriptorSpace descriptor
  ext i hi
  interval_cases i <;> simp

/-- WIDTH is read back. -/
@[simp] theorem descriptorWidth_descriptor (d : Bool) (s w : BitVec 2) (o : BitVec 26) :
    descriptorWidth (descriptor d s w o) = w := by
  unfold descriptorWidth descriptor
  ext i hi
  interval_cases i <;> simp

/-- OFFSET is read back. -/
@[simp] theorem descriptorOffset_descriptor (d : Bool) (s w : BitVec 2) (o : BitVec 26) :
    descriptorOffset (descriptor d s w o) = o := by
  unfold descriptorOffset descriptor
  ext i hi
  have h1 : i < 31 := by omega
  have h2 : i < 28 := by omega
  simp [h1, h2, hi]
  intro _
  omega

end Sys2Proof
end

