-- ==== Sys2Proof/Laws/State.lean ====
section
/-! SUPPORT. Every field after every update of the state, so that no later proof unfolds a record update. -/

namespace Sys2Proof.Machine

/-! ### `State.afterDraws` -/

@[simp] theorem State.afterDraws_cfg (n : Nat) (s : State) : (s.afterDraws n).cfg = s.cfg := rfl
@[simp] theorem State.afterDraws_flags (n : Nat) (s : State) : (s.afterDraws n).flags = s.flags := rfl
@[simp] theorem State.afterDraws_pg (n : Nat) (s : State) : (s.afterDraws n).pg = s.pg := rfl
@[simp] theorem State.afterDraws_per (n : Nat) (s : State) : (s.afterDraws n).per = s.per := rfl
@[simp] theorem State.afterDraws_pnb (n : Nat) (s : State) : (s.afterDraws n).pnb = s.pnb := rfl
@[simp] theorem State.afterDraws_lock (n : Nat) (s : State) : (s.afterDraws n).lock = s.lock := rfl
@[simp] theorem State.afterDraws_keyStage (n : Nat) (s : State) : (s.afterDraws n).keyStage = s.keyStage := rfl
@[simp] theorem State.afterDraws_latch (n : Nat) (s : State) : (s.afterDraws n).latch = s.latch := rfl
@[simp] theorem State.afterDraws_op (n : Nat) (s : State) : (s.afterDraws n).op = s.op := rfl
@[simp] theorem State.afterDraws_aborted (n : Nat) (s : State) : (s.afterDraws n).aborted = s.aborted := rfl
@[simp] theorem State.afterDraws_array (n : Nat) (s : State) : (s.afterDraws n).array = s.array := rfl
@[simp] theorem State.afterDraws_chipSizeCache (n : Nat) (s : State) : (s.afterDraws n).chipSizeCache = s.chipSizeCache := rfl
@[simp] theorem State.afterDraws_seq (n : Nat) (s : State) : (s.afterDraws n).seq = s.seq := rfl
@[simp] theorem State.afterDraws_resp (n : Nat) (s : State) : (s.afterDraws n).resp = s.resp := rfl
@[simp] theorem State.afterDraws_history (n : Nat) (s : State) : (s.afterDraws n).history = s.history := rfl
@[simp] theorem State.afterDraws_fault (n : Nat) (s : State) : (s.afterDraws n).fault = s.fault := rfl
@[simp] theorem State.afterDraws_refused (n : Nat) (s : State) : (s.afterDraws n).refused = s.refused := rfl
@[simp] theorem State.afterDraws_requests (n : Nat) (s : State) : (s.afterDraws n).requests = s.requests := rfl
@[simp] theorem State.afterDraws_busProbe (n : Nat) (s : State) : (s.afterDraws n).busProbe = s.busProbe := rfl
@[simp] theorem State.afterDraws_inputs (n : Nat) (s : State) : (s.afterDraws n).inputs = s.inputs.drop n := rfl
@[simp] theorem State.afterDraws_drawn (n : Nat) (s : State) : (s.afterDraws n).drawn = s.drawn + (n - s.inputs.length) := rfl

/-! ### `State.log` -/

@[simp] theorem State.log_cfg (e : Event) (s : State) : (s.log e).cfg = s.cfg := rfl
@[simp] theorem State.log_flags (e : Event) (s : State) : (s.log e).flags = s.flags := rfl
@[simp] theorem State.log_pg (e : Event) (s : State) : (s.log e).pg = s.pg := rfl
@[simp] theorem State.log_per (e : Event) (s : State) : (s.log e).per = s.per := rfl
@[simp] theorem State.log_pnb (e : Event) (s : State) : (s.log e).pnb = s.pnb := rfl
@[simp] theorem State.log_lock (e : Event) (s : State) : (s.log e).lock = s.lock := rfl
@[simp] theorem State.log_keyStage (e : Event) (s : State) : (s.log e).keyStage = s.keyStage := rfl
@[simp] theorem State.log_latch (e : Event) (s : State) : (s.log e).latch = s.latch := rfl
@[simp] theorem State.log_op (e : Event) (s : State) : (s.log e).op = s.op := rfl
@[simp] theorem State.log_aborted (e : Event) (s : State) : (s.log e).aborted = s.aborted := rfl
@[simp] theorem State.log_array (e : Event) (s : State) : (s.log e).array = s.array := rfl
@[simp] theorem State.log_chipSizeCache (e : Event) (s : State) : (s.log e).chipSizeCache = s.chipSizeCache := rfl
@[simp] theorem State.log_seq (e : Event) (s : State) : (s.log e).seq = s.seq := rfl
@[simp] theorem State.log_resp (e : Event) (s : State) : (s.log e).resp = s.resp := rfl
@[simp] theorem State.log_history (e : Event) (s : State) : (s.log e).history = s.history ++ [e] := rfl
@[simp] theorem State.log_fault (e : Event) (s : State) : (s.log e).fault = s.fault := rfl
@[simp] theorem State.log_refused (e : Event) (s : State) : (s.log e).refused = s.refused := rfl
@[simp] theorem State.log_requests (e : Event) (s : State) : (s.log e).requests = s.requests := rfl
@[simp] theorem State.log_busProbe (e : Event) (s : State) : (s.log e).busProbe = s.busProbe := rfl
@[simp] theorem State.log_inputs (e : Event) (s : State) : (s.log e).inputs = s.inputs := rfl
@[simp] theorem State.log_drawn (e : Event) (s : State) : (s.log e).drawn = s.drawn := rfl

/-! ### `State.refuse` -/

@[simp] theorem State.refuse_cfg (why : RefuseReason) (s : State) : (s.refuse why).cfg = s.cfg := rfl
@[simp] theorem State.refuse_flags (why : RefuseReason) (s : State) : (s.refuse why).flags = s.flags := rfl
@[simp] theorem State.refuse_pg (why : RefuseReason) (s : State) : (s.refuse why).pg = s.pg := rfl
@[simp] theorem State.refuse_per (why : RefuseReason) (s : State) : (s.refuse why).per = s.per := rfl
@[simp] theorem State.refuse_pnb (why : RefuseReason) (s : State) : (s.refuse why).pnb = s.pnb := rfl
@[simp] theorem State.refuse_lock (why : RefuseReason) (s : State) : (s.refuse why).lock = s.lock := rfl
@[simp] theorem State.refuse_keyStage (why : RefuseReason) (s : State) : (s.refuse why).keyStage = s.keyStage := rfl
@[simp] theorem State.refuse_latch (why : RefuseReason) (s : State) : (s.refuse why).latch = s.latch := rfl
@[simp] theorem State.refuse_op (why : RefuseReason) (s : State) : (s.refuse why).op = s.op := rfl
@[simp] theorem State.refuse_aborted (why : RefuseReason) (s : State) : (s.refuse why).aborted = s.aborted := rfl
@[simp] theorem State.refuse_array (why : RefuseReason) (s : State) : (s.refuse why).array = s.array := rfl
@[simp] theorem State.refuse_chipSizeCache (why : RefuseReason) (s : State) : (s.refuse why).chipSizeCache = s.chipSizeCache := rfl
@[simp] theorem State.refuse_seq (why : RefuseReason) (s : State) : (s.refuse why).seq = s.seq := rfl
@[simp] theorem State.refuse_resp (why : RefuseReason) (s : State) : (s.refuse why).resp = s.resp := rfl
@[simp] theorem State.refuse_history (why : RefuseReason) (s : State) : (s.refuse why).history = s.history := rfl
@[simp] theorem State.refuse_fault (why : RefuseReason) (s : State) : (s.refuse why).fault = s.fault := rfl
@[simp] theorem State.refuse_refused (why : RefuseReason) (s : State) : (s.refuse why).refused = some why := rfl
@[simp] theorem State.refuse_requests (why : RefuseReason) (s : State) : (s.refuse why).requests = s.requests := rfl
@[simp] theorem State.refuse_busProbe (why : RefuseReason) (s : State) : (s.refuse why).busProbe = s.busProbe := rfl
@[simp] theorem State.refuse_inputs (why : RefuseReason) (s : State) : (s.refuse why).inputs = s.inputs := rfl
@[simp] theorem State.refuse_drawn (why : RefuseReason) (s : State) : (s.refuse why).drawn = s.drawn := rfl

/-! ### `State.recordFault` -/

@[simp] theorem State.recordFault_cfg (o : Nat) (w : Word) (s : State) : (s.recordFault o w).cfg = s.cfg := rfl
@[simp] theorem State.recordFault_flags (o : Nat) (w : Word) (s : State) : (s.recordFault o w).flags = s.flags := rfl
@[simp] theorem State.recordFault_pg (o : Nat) (w : Word) (s : State) : (s.recordFault o w).pg = s.pg := rfl
@[simp] theorem State.recordFault_per (o : Nat) (w : Word) (s : State) : (s.recordFault o w).per = s.per := rfl
@[simp] theorem State.recordFault_pnb (o : Nat) (w : Word) (s : State) : (s.recordFault o w).pnb = s.pnb := rfl
@[simp] theorem State.recordFault_lock (o : Nat) (w : Word) (s : State) : (s.recordFault o w).lock = s.lock := rfl
@[simp] theorem State.recordFault_keyStage (o : Nat) (w : Word) (s : State) : (s.recordFault o w).keyStage = s.keyStage := rfl
@[simp] theorem State.recordFault_latch (o : Nat) (w : Word) (s : State) : (s.recordFault o w).latch = s.latch := rfl
@[simp] theorem State.recordFault_op (o : Nat) (w : Word) (s : State) : (s.recordFault o w).op = s.op := rfl
@[simp] theorem State.recordFault_aborted (o : Nat) (w : Word) (s : State) : (s.recordFault o w).aborted = s.aborted := rfl
@[simp] theorem State.recordFault_array (o : Nat) (w : Word) (s : State) : (s.recordFault o w).array = s.array := rfl
@[simp] theorem State.recordFault_chipSizeCache (o : Nat) (w : Word) (s : State) : (s.recordFault o w).chipSizeCache = s.chipSizeCache := rfl
@[simp] theorem State.recordFault_seq (o : Nat) (w : Word) (s : State) : (s.recordFault o w).seq = s.seq := rfl
@[simp] theorem State.recordFault_resp (o : Nat) (w : Word) (s : State) : (s.recordFault o w).resp = s.resp := rfl
@[simp] theorem State.recordFault_history (o : Nat) (w : Word) (s : State) : (s.recordFault o w).history = s.history := rfl
@[simp] theorem State.recordFault_fault (o : Nat) (w : Word) (s : State) : (s.recordFault o w).fault = some ⟨o, w⟩ := rfl
@[simp] theorem State.recordFault_refused (o : Nat) (w : Word) (s : State) : (s.recordFault o w).refused = s.refused := rfl
@[simp] theorem State.recordFault_requests (o : Nat) (w : Word) (s : State) : (s.recordFault o w).requests = s.requests := rfl
@[simp] theorem State.recordFault_busProbe (o : Nat) (w : Word) (s : State) : (s.recordFault o w).busProbe = s.busProbe := rfl
@[simp] theorem State.recordFault_inputs (o : Nat) (w : Word) (s : State) : (s.recordFault o w).inputs = s.inputs := rfl
@[simp] theorem State.recordFault_drawn (o : Nat) (w : Word) (s : State) : (s.recordFault o w).drawn = s.drawn := rfl

/-! ### `State.respond` -/

@[simp] theorem State.respond_cfg (st : Status) (v : Word) (d : List Byte) (s : State) : (s.respond st v d).cfg = s.cfg := rfl
@[simp] theorem State.respond_flags (st : Status) (v : Word) (d : List Byte) (s : State) : (s.respond st v d).flags = s.flags := rfl
@[simp] theorem State.respond_pg (st : Status) (v : Word) (d : List Byte) (s : State) : (s.respond st v d).pg = s.pg := rfl
@[simp] theorem State.respond_per (st : Status) (v : Word) (d : List Byte) (s : State) : (s.respond st v d).per = s.per := rfl
@[simp] theorem State.respond_pnb (st : Status) (v : Word) (d : List Byte) (s : State) : (s.respond st v d).pnb = s.pnb := rfl
@[simp] theorem State.respond_lock (st : Status) (v : Word) (d : List Byte) (s : State) : (s.respond st v d).lock = s.lock := rfl
@[simp] theorem State.respond_keyStage (st : Status) (v : Word) (d : List Byte) (s : State) : (s.respond st v d).keyStage = s.keyStage := rfl
@[simp] theorem State.respond_latch (st : Status) (v : Word) (d : List Byte) (s : State) : (s.respond st v d).latch = s.latch := rfl
@[simp] theorem State.respond_op (st : Status) (v : Word) (d : List Byte) (s : State) : (s.respond st v d).op = s.op := rfl
@[simp] theorem State.respond_aborted (st : Status) (v : Word) (d : List Byte) (s : State) : (s.respond st v d).aborted = s.aborted := rfl
@[simp] theorem State.respond_array (st : Status) (v : Word) (d : List Byte) (s : State) : (s.respond st v d).array = s.array := rfl
@[simp] theorem State.respond_chipSizeCache (st : Status) (v : Word) (d : List Byte) (s : State) : (s.respond st v d).chipSizeCache = s.chipSizeCache := rfl
@[simp] theorem State.respond_seq (st : Status) (v : Word) (d : List Byte) (s : State) : (s.respond st v d).seq = .idle := rfl
@[simp] theorem State.respond_resp (st : Status) (v : Word) (d : List Byte) (s : State) : (s.respond st v d).resp = some ⟨st, v, d⟩ := rfl
@[simp] theorem State.respond_history (st : Status) (v : Word) (d : List Byte) (s : State) : (s.respond st v d).history = s.history := rfl
@[simp] theorem State.respond_fault (st : Status) (v : Word) (d : List Byte) (s : State) : (s.respond st v d).fault = s.fault := rfl
@[simp] theorem State.respond_refused (st : Status) (v : Word) (d : List Byte) (s : State) : (s.respond st v d).refused = s.refused := rfl
@[simp] theorem State.respond_requests (st : Status) (v : Word) (d : List Byte) (s : State) : (s.respond st v d).requests = s.requests := rfl
@[simp] theorem State.respond_busProbe (st : Status) (v : Word) (d : List Byte) (s : State) : (s.respond st v d).busProbe = s.busProbe := rfl
@[simp] theorem State.respond_inputs (st : Status) (v : Word) (d : List Byte) (s : State) : (s.respond st v d).inputs = s.inputs := rfl
@[simp] theorem State.respond_drawn (st : Status) (v : Word) (d : List Byte) (s : State) : (s.respond st v d).drawn = s.drawn := rfl

/-! ### `State.raiseInvalidArgument` -/

@[simp] theorem State.raiseInvalidArgument_cfg (s : State) : (s.raiseInvalidArgument).cfg = s.cfg := rfl
@[simp] theorem State.raiseInvalidArgument_flags (s : State) : (s.raiseInvalidArgument).flags = s.flags := rfl
@[simp] theorem State.raiseInvalidArgument_pg (s : State) : (s.raiseInvalidArgument).pg = s.pg := rfl
@[simp] theorem State.raiseInvalidArgument_per (s : State) : (s.raiseInvalidArgument).per = s.per := rfl
@[simp] theorem State.raiseInvalidArgument_pnb (s : State) : (s.raiseInvalidArgument).pnb = s.pnb := rfl
@[simp] theorem State.raiseInvalidArgument_lock (s : State) : (s.raiseInvalidArgument).lock = s.lock := rfl
@[simp] theorem State.raiseInvalidArgument_keyStage (s : State) : (s.raiseInvalidArgument).keyStage = s.keyStage := rfl
@[simp] theorem State.raiseInvalidArgument_latch (s : State) : (s.raiseInvalidArgument).latch = s.latch := rfl
@[simp] theorem State.raiseInvalidArgument_op (s : State) : (s.raiseInvalidArgument).op = s.op := rfl
@[simp] theorem State.raiseInvalidArgument_aborted (s : State) : (s.raiseInvalidArgument).aborted = s.aborted := rfl
@[simp] theorem State.raiseInvalidArgument_array (s : State) : (s.raiseInvalidArgument).array = s.array := rfl
@[simp] theorem State.raiseInvalidArgument_chipSizeCache (s : State) : (s.raiseInvalidArgument).chipSizeCache = s.chipSizeCache := rfl
@[simp] theorem State.raiseInvalidArgument_seq (s : State) : (s.raiseInvalidArgument).seq = .idle := rfl
@[simp] theorem State.raiseInvalidArgument_resp (s : State) : (s.raiseInvalidArgument).resp = some ⟨.invalidArgument, 0, []⟩ := rfl
@[simp] theorem State.raiseInvalidArgument_history (s : State) : (s.raiseInvalidArgument).history = s.history := rfl
@[simp] theorem State.raiseInvalidArgument_fault (s : State) : (s.raiseInvalidArgument).fault = s.fault := rfl
@[simp] theorem State.raiseInvalidArgument_refused (s : State) : (s.raiseInvalidArgument).refused = s.refused := rfl
@[simp] theorem State.raiseInvalidArgument_requests (s : State) : (s.raiseInvalidArgument).requests = s.requests := rfl
@[simp] theorem State.raiseInvalidArgument_busProbe (s : State) : (s.raiseInvalidArgument).busProbe = s.busProbe := rfl
@[simp] theorem State.raiseInvalidArgument_inputs (s : State) : (s.raiseInvalidArgument).inputs = s.inputs := rfl
@[simp] theorem State.raiseInvalidArgument_drawn (s : State) : (s.raiseInvalidArgument).drawn = s.drawn := rfl

/-! ### `State.raiseTimeout` -/

@[simp] theorem State.raiseTimeout_cfg (s : State) : (s.raiseTimeout).cfg = s.cfg := rfl
@[simp] theorem State.raiseTimeout_flags (s : State) : (s.raiseTimeout).flags = s.flags := rfl
@[simp] theorem State.raiseTimeout_pg (s : State) : (s.raiseTimeout).pg = s.pg := rfl
@[simp] theorem State.raiseTimeout_per (s : State) : (s.raiseTimeout).per = s.per := rfl
@[simp] theorem State.raiseTimeout_pnb (s : State) : (s.raiseTimeout).pnb = s.pnb := rfl
@[simp] theorem State.raiseTimeout_lock (s : State) : (s.raiseTimeout).lock = s.lock := rfl
@[simp] theorem State.raiseTimeout_keyStage (s : State) : (s.raiseTimeout).keyStage = s.keyStage := rfl
@[simp] theorem State.raiseTimeout_latch (s : State) : (s.raiseTimeout).latch = s.latch := rfl
@[simp] theorem State.raiseTimeout_op (s : State) : (s.raiseTimeout).op = s.op := rfl
@[simp] theorem State.raiseTimeout_aborted (s : State) : (s.raiseTimeout).aborted = s.aborted := rfl
@[simp] theorem State.raiseTimeout_array (s : State) : (s.raiseTimeout).array = s.array := rfl
@[simp] theorem State.raiseTimeout_chipSizeCache (s : State) : (s.raiseTimeout).chipSizeCache = s.chipSizeCache := rfl
@[simp] theorem State.raiseTimeout_seq (s : State) : (s.raiseTimeout).seq = .idle := rfl
@[simp] theorem State.raiseTimeout_resp (s : State) : (s.raiseTimeout).resp = some ⟨.timeout, 0, []⟩ := rfl
@[simp] theorem State.raiseTimeout_history (s : State) : (s.raiseTimeout).history = s.history := rfl
@[simp] theorem State.raiseTimeout_fault (s : State) : (s.raiseTimeout).fault = s.fault := rfl
@[simp] theorem State.raiseTimeout_refused (s : State) : (s.raiseTimeout).refused = s.refused := rfl
@[simp] theorem State.raiseTimeout_requests (s : State) : (s.raiseTimeout).requests = s.requests := rfl
@[simp] theorem State.raiseTimeout_busProbe (s : State) : (s.raiseTimeout).busProbe = s.busProbe := rfl
@[simp] theorem State.raiseTimeout_inputs (s : State) : (s.raiseTimeout).inputs = s.inputs := rfl
@[simp] theorem State.raiseTimeout_drawn (s : State) : (s.raiseTimeout).drawn = s.drawn := rfl

/-! ### `State.goto` -/

@[simp] theorem State.goto_cfg (r : Run) (ph : Phase) (g : Regs) (s : State) : (s.goto r ph g).cfg = s.cfg := rfl
@[simp] theorem State.goto_flags (r : Run) (ph : Phase) (g : Regs) (s : State) : (s.goto r ph g).flags = s.flags := rfl
@[simp] theorem State.goto_pg (r : Run) (ph : Phase) (g : Regs) (s : State) : (s.goto r ph g).pg = s.pg := rfl
@[simp] theorem State.goto_per (r : Run) (ph : Phase) (g : Regs) (s : State) : (s.goto r ph g).per = s.per := rfl
@[simp] theorem State.goto_pnb (r : Run) (ph : Phase) (g : Regs) (s : State) : (s.goto r ph g).pnb = s.pnb := rfl
@[simp] theorem State.goto_lock (r : Run) (ph : Phase) (g : Regs) (s : State) : (s.goto r ph g).lock = s.lock := rfl
@[simp] theorem State.goto_keyStage (r : Run) (ph : Phase) (g : Regs) (s : State) : (s.goto r ph g).keyStage = s.keyStage := rfl
@[simp] theorem State.goto_latch (r : Run) (ph : Phase) (g : Regs) (s : State) : (s.goto r ph g).latch = s.latch := rfl
@[simp] theorem State.goto_op (r : Run) (ph : Phase) (g : Regs) (s : State) : (s.goto r ph g).op = s.op := rfl
@[simp] theorem State.goto_aborted (r : Run) (ph : Phase) (g : Regs) (s : State) : (s.goto r ph g).aborted = s.aborted := rfl
@[simp] theorem State.goto_array (r : Run) (ph : Phase) (g : Regs) (s : State) : (s.goto r ph g).array = s.array := rfl
@[simp] theorem State.goto_chipSizeCache (r : Run) (ph : Phase) (g : Regs) (s : State) : (s.goto r ph g).chipSizeCache = s.chipSizeCache := rfl
@[simp] theorem State.goto_seq (r : Run) (ph : Phase) (g : Regs) (s : State) : (s.goto r ph g).seq = .running { r with pos := r.pos + 1, phase := ph, regs := g } := rfl
@[simp] theorem State.goto_resp (r : Run) (ph : Phase) (g : Regs) (s : State) : (s.goto r ph g).resp = s.resp := rfl
@[simp] theorem State.goto_history (r : Run) (ph : Phase) (g : Regs) (s : State) : (s.goto r ph g).history = s.history := rfl
@[simp] theorem State.goto_fault (r : Run) (ph : Phase) (g : Regs) (s : State) : (s.goto r ph g).fault = s.fault := rfl
@[simp] theorem State.goto_refused (r : Run) (ph : Phase) (g : Regs) (s : State) : (s.goto r ph g).refused = s.refused := rfl
@[simp] theorem State.goto_requests (r : Run) (ph : Phase) (g : Regs) (s : State) : (s.goto r ph g).requests = s.requests := rfl
@[simp] theorem State.goto_busProbe (r : Run) (ph : Phase) (g : Regs) (s : State) : (s.goto r ph g).busProbe = s.busProbe := rfl
@[simp] theorem State.goto_inputs (r : Run) (ph : Phase) (g : Regs) (s : State) : (s.goto r ph g).inputs = s.inputs := rfl
@[simp] theorem State.goto_drawn (r : Run) (ph : Phase) (g : Regs) (s : State) : (s.goto r ph g).drawn = s.drawn := rfl

/-! ### `State.putBytes` -/

@[simp] theorem State.putBytes_cfg (o : Nat) (bytes : List Byte) (s : State) : (s.putBytes o bytes).cfg = s.cfg := rfl
@[simp] theorem State.putBytes_flags (o : Nat) (bytes : List Byte) (s : State) : (s.putBytes o bytes).flags = s.flags := rfl
@[simp] theorem State.putBytes_pg (o : Nat) (bytes : List Byte) (s : State) : (s.putBytes o bytes).pg = s.pg := rfl
@[simp] theorem State.putBytes_per (o : Nat) (bytes : List Byte) (s : State) : (s.putBytes o bytes).per = s.per := rfl
@[simp] theorem State.putBytes_pnb (o : Nat) (bytes : List Byte) (s : State) : (s.putBytes o bytes).pnb = s.pnb := rfl
@[simp] theorem State.putBytes_lock (o : Nat) (bytes : List Byte) (s : State) : (s.putBytes o bytes).lock = s.lock := rfl
@[simp] theorem State.putBytes_keyStage (o : Nat) (bytes : List Byte) (s : State) : (s.putBytes o bytes).keyStage = s.keyStage := rfl
@[simp] theorem State.putBytes_latch (o : Nat) (bytes : List Byte) (s : State) : (s.putBytes o bytes).latch = s.latch := rfl
@[simp] theorem State.putBytes_op (o : Nat) (bytes : List Byte) (s : State) : (s.putBytes o bytes).op = s.op := rfl
@[simp] theorem State.putBytes_aborted (o : Nat) (bytes : List Byte) (s : State) : (s.putBytes o bytes).aborted = s.aborted := rfl
@[simp] theorem State.putBytes_array (o : Nat) (bytes : List Byte) (s : State) : (s.putBytes o bytes).array = memWriteBytes s.cfg.initialByte s.array o bytes := rfl
@[simp] theorem State.putBytes_chipSizeCache (o : Nat) (bytes : List Byte) (s : State) : (s.putBytes o bytes).chipSizeCache = s.chipSizeCache := rfl
@[simp] theorem State.putBytes_seq (o : Nat) (bytes : List Byte) (s : State) : (s.putBytes o bytes).seq = s.seq := rfl
@[simp] theorem State.putBytes_resp (o : Nat) (bytes : List Byte) (s : State) : (s.putBytes o bytes).resp = s.resp := rfl
@[simp] theorem State.putBytes_history (o : Nat) (bytes : List Byte) (s : State) : (s.putBytes o bytes).history = s.history := rfl
@[simp] theorem State.putBytes_fault (o : Nat) (bytes : List Byte) (s : State) : (s.putBytes o bytes).fault = s.fault := rfl
@[simp] theorem State.putBytes_refused (o : Nat) (bytes : List Byte) (s : State) : (s.putBytes o bytes).refused = s.refused := rfl
@[simp] theorem State.putBytes_requests (o : Nat) (bytes : List Byte) (s : State) : (s.putBytes o bytes).requests = s.requests := rfl
@[simp] theorem State.putBytes_busProbe (o : Nat) (bytes : List Byte) (s : State) : (s.putBytes o bytes).busProbe = s.busProbe := rfl
@[simp] theorem State.putBytes_inputs (o : Nat) (bytes : List Byte) (s : State) : (s.putBytes o bytes).inputs = s.inputs := rfl
@[simp] theorem State.putBytes_drawn (o : Nat) (bytes : List Byte) (s : State) : (s.putBytes o bytes).drawn = s.drawn := rfl

/-! ### `State.drawInto` -/

@[simp] theorem State.drawInto_cfg (o n : Nat) (s : State) : (s.drawInto o n).cfg = s.cfg := rfl
@[simp] theorem State.drawInto_flags (o n : Nat) (s : State) : (s.drawInto o n).flags = s.flags := rfl
@[simp] theorem State.drawInto_pg (o n : Nat) (s : State) : (s.drawInto o n).pg = s.pg := rfl
@[simp] theorem State.drawInto_per (o n : Nat) (s : State) : (s.drawInto o n).per = s.per := rfl
@[simp] theorem State.drawInto_pnb (o n : Nat) (s : State) : (s.drawInto o n).pnb = s.pnb := rfl
@[simp] theorem State.drawInto_lock (o n : Nat) (s : State) : (s.drawInto o n).lock = s.lock := rfl
@[simp] theorem State.drawInto_keyStage (o n : Nat) (s : State) : (s.drawInto o n).keyStage = s.keyStage := rfl
@[simp] theorem State.drawInto_latch (o n : Nat) (s : State) : (s.drawInto o n).latch = s.latch := rfl
@[simp] theorem State.drawInto_op (o n : Nat) (s : State) : (s.drawInto o n).op = s.op := rfl
@[simp] theorem State.drawInto_aborted (o n : Nat) (s : State) : (s.drawInto o n).aborted = s.aborted := rfl
@[simp] theorem State.drawInto_array (o n : Nat) (s : State) : (s.drawInto o n).array = memWriteBytes s.cfg.initialByte s.array o (s.drawBytes 0 n) := rfl
@[simp] theorem State.drawInto_chipSizeCache (o n : Nat) (s : State) : (s.drawInto o n).chipSizeCache = s.chipSizeCache := rfl
@[simp] theorem State.drawInto_seq (o n : Nat) (s : State) : (s.drawInto o n).seq = s.seq := rfl
@[simp] theorem State.drawInto_resp (o n : Nat) (s : State) : (s.drawInto o n).resp = s.resp := rfl
@[simp] theorem State.drawInto_history (o n : Nat) (s : State) : (s.drawInto o n).history = s.history := rfl
@[simp] theorem State.drawInto_fault (o n : Nat) (s : State) : (s.drawInto o n).fault = s.fault := rfl
@[simp] theorem State.drawInto_refused (o n : Nat) (s : State) : (s.drawInto o n).refused = s.refused := rfl
@[simp] theorem State.drawInto_requests (o n : Nat) (s : State) : (s.drawInto o n).requests = s.requests := rfl
@[simp] theorem State.drawInto_busProbe (o n : Nat) (s : State) : (s.drawInto o n).busProbe = s.busProbe := rfl
@[simp] theorem State.drawInto_inputs (o n : Nat) (s : State) : (s.drawInto o n).inputs = s.inputs.drop n := rfl
@[simp] theorem State.drawInto_drawn (o n : Nat) (s : State) : (s.drawInto o n).drawn = s.drawn + (n - s.inputs.length) := rfl

/-! ### `State.begin` -/

@[simp] theorem State.begin_cfg (op : Op) (s : State) : (s.begin op).cfg = s.cfg := rfl
@[simp] theorem State.begin_flags (op : Op) (s : State) : (s.begin op).flags = s.flags := rfl
@[simp] theorem State.begin_pg (op : Op) (s : State) : (s.begin op).pg = s.pg := rfl
@[simp] theorem State.begin_per (op : Op) (s : State) : (s.begin op).per = s.per := rfl
@[simp] theorem State.begin_pnb (op : Op) (s : State) : (s.begin op).pnb = s.pnb := rfl
@[simp] theorem State.begin_lock (op : Op) (s : State) : (s.begin op).lock = s.lock := rfl
@[simp] theorem State.begin_keyStage (op : Op) (s : State) : (s.begin op).keyStage = s.keyStage := rfl
@[simp] theorem State.begin_latch (op : Op) (s : State) : (s.begin op).latch = s.latch := rfl
@[simp] theorem State.begin_op (op : Op) (s : State) : (s.begin op).op = op := rfl
@[simp] theorem State.begin_aborted (op : Op) (s : State) : (s.begin op).aborted = false := rfl
@[simp] theorem State.begin_array (op : Op) (s : State) : (s.begin op).array = s.array := rfl
@[simp] theorem State.begin_chipSizeCache (op : Op) (s : State) : (s.begin op).chipSizeCache = s.chipSizeCache := rfl
@[simp] theorem State.begin_seq (op : Op) (s : State) : (s.begin op).seq = s.seq := rfl
@[simp] theorem State.begin_resp (op : Op) (s : State) : (s.begin op).resp = s.resp := rfl
@[simp] theorem State.begin_history (op : Op) (s : State) : (s.begin op).history = s.history := rfl
@[simp] theorem State.begin_fault (op : Op) (s : State) : (s.begin op).fault = s.fault := rfl
@[simp] theorem State.begin_refused (op : Op) (s : State) : (s.begin op).refused = s.refused := rfl
@[simp] theorem State.begin_requests (op : Op) (s : State) : (s.begin op).requests = s.requests := rfl
@[simp] theorem State.begin_busProbe (op : Op) (s : State) : (s.begin op).busProbe = s.busProbe := rfl
@[simp] theorem State.begin_inputs (op : Op) (s : State) : (s.begin op).inputs = s.inputs := rfl
@[simp] theorem State.begin_drawn (op : Op) (s : State) : (s.begin op).drawn = s.drawn := rfl

/-! ### `State.popRequest` -/

@[simp] theorem State.popRequest_cfg (s : State) : (s.popRequest).cfg = s.cfg := rfl
@[simp] theorem State.popRequest_flags (s : State) : (s.popRequest).flags = s.flags := rfl
@[simp] theorem State.popRequest_pg (s : State) : (s.popRequest).pg = s.pg := rfl
@[simp] theorem State.popRequest_per (s : State) : (s.popRequest).per = s.per := rfl
@[simp] theorem State.popRequest_pnb (s : State) : (s.popRequest).pnb = s.pnb := rfl
@[simp] theorem State.popRequest_lock (s : State) : (s.popRequest).lock = s.lock := rfl
@[simp] theorem State.popRequest_keyStage (s : State) : (s.popRequest).keyStage = s.keyStage := rfl
@[simp] theorem State.popRequest_latch (s : State) : (s.popRequest).latch = s.latch := rfl
@[simp] theorem State.popRequest_op (s : State) : (s.popRequest).op = s.op := rfl
@[simp] theorem State.popRequest_aborted (s : State) : (s.popRequest).aborted = s.aborted := rfl
@[simp] theorem State.popRequest_array (s : State) : (s.popRequest).array = s.array := rfl
@[simp] theorem State.popRequest_chipSizeCache (s : State) : (s.popRequest).chipSizeCache = s.chipSizeCache := rfl
@[simp] theorem State.popRequest_seq (s : State) : (s.popRequest).seq = s.seq := rfl
@[simp] theorem State.popRequest_resp (s : State) : (s.popRequest).resp = s.resp := rfl
@[simp] theorem State.popRequest_history (s : State) : (s.popRequest).history = s.history := rfl
@[simp] theorem State.popRequest_fault (s : State) : (s.popRequest).fault = s.fault := rfl
@[simp] theorem State.popRequest_refused (s : State) : (s.popRequest).refused = s.refused := rfl
@[simp] theorem State.popRequest_requests (s : State) : (s.popRequest).requests = s.requests.tail := rfl
@[simp] theorem State.popRequest_busProbe (s : State) : (s.popRequest).busProbe = s.busProbe := rfl
@[simp] theorem State.popRequest_inputs (s : State) : (s.popRequest).inputs = s.inputs := rfl
@[simp] theorem State.popRequest_drawn (s : State) : (s.popRequest).drawn = s.drawn := rfl

/-! ### `State.popProbe` -/

@[simp] theorem State.popProbe_cfg (s : State) : s.popProbe.cfg = s.cfg := rfl
@[simp] theorem State.popProbe_flags (s : State) : s.popProbe.flags = s.flags := rfl
@[simp] theorem State.popProbe_pg (s : State) : s.popProbe.pg = s.pg := rfl
@[simp] theorem State.popProbe_per (s : State) : s.popProbe.per = s.per := rfl
@[simp] theorem State.popProbe_pnb (s : State) : s.popProbe.pnb = s.pnb := rfl
@[simp] theorem State.popProbe_lock (s : State) : s.popProbe.lock = s.lock := rfl
@[simp] theorem State.popProbe_keyStage (s : State) : s.popProbe.keyStage = s.keyStage := rfl
@[simp] theorem State.popProbe_latch (s : State) : s.popProbe.latch = s.latch := rfl
@[simp] theorem State.popProbe_op (s : State) : s.popProbe.op = s.op := rfl
@[simp] theorem State.popProbe_aborted (s : State) : s.popProbe.aborted = s.aborted := rfl
@[simp] theorem State.popProbe_array (s : State) : s.popProbe.array = s.array := rfl
@[simp] theorem State.popProbe_chipSizeCache (s : State) : s.popProbe.chipSizeCache = s.chipSizeCache := rfl
@[simp] theorem State.popProbe_seq (s : State) : s.popProbe.seq = s.seq := rfl
@[simp] theorem State.popProbe_resp (s : State) : s.popProbe.resp = s.resp := rfl
@[simp] theorem State.popProbe_history (s : State) : s.popProbe.history = s.history := rfl
@[simp] theorem State.popProbe_fault (s : State) : s.popProbe.fault = s.fault := rfl
@[simp] theorem State.popProbe_refused (s : State) : s.popProbe.refused = s.refused := rfl
@[simp] theorem State.popProbe_requests (s : State) : s.popProbe.requests = s.requests := rfl
@[simp] theorem State.popProbe_busProbe (s : State) : s.popProbe.busProbe = none := rfl
@[simp] theorem State.popProbe_inputs (s : State) : s.popProbe.inputs = s.inputs := rfl
@[simp] theorem State.popProbe_drawn (s : State) : s.popProbe.drawn = s.drawn := rfl

/-! ### `State.placeRequest` -/

@[simp] theorem State.placeRequest_cfg (q : Request) (s : State) : (s.placeRequest q).cfg = s.cfg := by
  cases q <;> rfl
@[simp] theorem State.placeRequest_flags (q : Request) (s : State) : (s.placeRequest q).flags = s.flags := by
  cases q <;> rfl
@[simp] theorem State.placeRequest_pg (q : Request) (s : State) : (s.placeRequest q).pg = s.pg := by
  cases q <;> rfl
@[simp] theorem State.placeRequest_per (q : Request) (s : State) : (s.placeRequest q).per = s.per := by
  cases q <;> rfl
@[simp] theorem State.placeRequest_pnb (q : Request) (s : State) : (s.placeRequest q).pnb = s.pnb := by
  cases q <;> rfl
@[simp] theorem State.placeRequest_lock (q : Request) (s : State) : (s.placeRequest q).lock = s.lock := by
  cases q <;> rfl
@[simp] theorem State.placeRequest_keyStage (q : Request) (s : State) : (s.placeRequest q).keyStage = s.keyStage := by
  cases q <;> rfl
@[simp] theorem State.placeRequest_latch (q : Request) (s : State) : (s.placeRequest q).latch = s.latch := by
  cases q <;> rfl
@[simp] theorem State.placeRequest_op (q : Request) (s : State) : (s.placeRequest q).op = s.op := by
  cases q <;> rfl
@[simp] theorem State.placeRequest_aborted (q : Request) (s : State) : (s.placeRequest q).aborted = s.aborted := by
  cases q <;> rfl
@[simp] theorem State.placeRequest_array (q : Request) (s : State) : (s.placeRequest q).array = s.array := by
  cases q <;> rfl
@[simp] theorem State.placeRequest_chipSizeCache (q : Request) (s : State) : (s.placeRequest q).chipSizeCache = s.chipSizeCache := by
  cases q <;> rfl
@[simp] theorem State.placeRequest_resp (q : Request) (s : State) : (s.placeRequest q).resp = s.resp := by
  cases q <;> rfl
@[simp] theorem State.placeRequest_history (q : Request) (s : State) : (s.placeRequest q).history = s.history := by
  cases q <;> rfl
@[simp] theorem State.placeRequest_fault (q : Request) (s : State) : (s.placeRequest q).fault = s.fault := by
  cases q <;> rfl
@[simp] theorem State.placeRequest_refused (q : Request) (s : State) : (s.placeRequest q).refused = s.refused := by
  cases q <;> rfl
@[simp] theorem State.placeRequest_inputs (q : Request) (s : State) : (s.placeRequest q).inputs = s.inputs := by
  cases q <;> rfl
@[simp] theorem State.placeRequest_drawn (q : Request) (s : State) : (s.placeRequest q).drawn = s.drawn := by
  cases q <;> rfl
@[simp] theorem State.placeRequest_seq (q : Request) (s : State) : (s.placeRequest q).seq = .idle := by
  cases q <;> rfl
@[simp] theorem State.placeRequest_command_requests (c : CommandRequest) (s : State) :
    (s.placeRequest (.command c)).requests = c :: s.requests.tail := rfl
@[simp] theorem State.placeRequest_command_busProbe (c : CommandRequest) (s : State) :
    (s.placeRequest (.command c)).busProbe = none := rfl
@[simp] theorem State.placeRequest_bus_requests (t : BusRequest) (s : State) :
    (s.placeRequest (.bus t)).requests = s.requests := rfl
@[simp] theorem State.placeRequest_bus_busProbe (t : BusRequest) (s : State) :
    (s.placeRequest (.bus t)).busProbe = some t := rfl

/-! ### `setLockIf` -/

@[simp] theorem setLockIf_cfg (v : Word) (s : State) : (setLockIf v s).cfg = s.cfg := rfl
@[simp] theorem setLockIf_flags (v : Word) (s : State) : (setLockIf v s).flags = s.flags := rfl
@[simp] theorem setLockIf_pg (v : Word) (s : State) : (setLockIf v s).pg = s.pg := rfl
@[simp] theorem setLockIf_per (v : Word) (s : State) : (setLockIf v s).per = s.per := rfl
@[simp] theorem setLockIf_pnb (v : Word) (s : State) : (setLockIf v s).pnb = s.pnb := rfl
@[simp] theorem setLockIf_lock (v : Word) (s : State) : (setLockIf v s).lock = (s.lock || v.getLsbD 31) := rfl
@[simp] theorem setLockIf_keyStage (v : Word) (s : State) : (setLockIf v s).keyStage = s.keyStage := rfl
@[simp] theorem setLockIf_latch (v : Word) (s : State) : (setLockIf v s).latch = s.latch := rfl
@[simp] theorem setLockIf_op (v : Word) (s : State) : (setLockIf v s).op = s.op := rfl
@[simp] theorem setLockIf_aborted (v : Word) (s : State) : (setLockIf v s).aborted = s.aborted := rfl
@[simp] theorem setLockIf_array (v : Word) (s : State) : (setLockIf v s).array = s.array := rfl
@[simp] theorem setLockIf_chipSizeCache (v : Word) (s : State) : (setLockIf v s).chipSizeCache = s.chipSizeCache := rfl
@[simp] theorem setLockIf_seq (v : Word) (s : State) : (setLockIf v s).seq = s.seq := rfl
@[simp] theorem setLockIf_resp (v : Word) (s : State) : (setLockIf v s).resp = s.resp := rfl
@[simp] theorem setLockIf_history (v : Word) (s : State) : (setLockIf v s).history = s.history := rfl
@[simp] theorem setLockIf_fault (v : Word) (s : State) : (setLockIf v s).fault = s.fault := rfl
@[simp] theorem setLockIf_refused (v : Word) (s : State) : (setLockIf v s).refused = s.refused := rfl
@[simp] theorem setLockIf_requests (v : Word) (s : State) : (setLockIf v s).requests = s.requests := rfl
@[simp] theorem setLockIf_busProbe (v : Word) (s : State) : (setLockIf v s).busProbe = s.busProbe := rfl
@[simp] theorem setLockIf_inputs (v : Word) (s : State) : (setLockIf v s).inputs = s.inputs := rfl
@[simp] theorem setLockIf_drawn (v : Word) (s : State) : (setLockIf v s).drawn = s.drawn := rfl

/-! ### `crFields` -/

@[simp] theorem crFields_cfg (v : Word) (s : State) : (crFields v s).cfg = s.cfg := rfl
@[simp] theorem crFields_flags (v : Word) (s : State) : (crFields v s).flags = s.flags := rfl
@[simp] theorem crFields_pg (v : Word) (s : State) : (crFields v s).pg = v.getLsbD 0 := rfl
@[simp] theorem crFields_per (v : Word) (s : State) : (crFields v s).per = v.getLsbD 1 := rfl
@[simp] theorem crFields_pnb (v : Word) (s : State) : (crFields v s).pnb = crPageIndex v := rfl
@[simp] theorem crFields_lock (v : Word) (s : State) : (crFields v s).lock = s.lock := rfl
@[simp] theorem crFields_keyStage (v : Word) (s : State) : (crFields v s).keyStage = s.keyStage := rfl
@[simp] theorem crFields_latch (v : Word) (s : State) : (crFields v s).latch = (if v.getLsbD 0 then s.latch else none) := rfl
@[simp] theorem crFields_op (v : Word) (s : State) : (crFields v s).op = s.op := rfl
@[simp] theorem crFields_aborted (v : Word) (s : State) : (crFields v s).aborted = (s.aborted || abortCheck v s) := rfl
@[simp] theorem crFields_array (v : Word) (s : State) : (crFields v s).array = s.array := rfl
@[simp] theorem crFields_chipSizeCache (v : Word) (s : State) : (crFields v s).chipSizeCache = s.chipSizeCache := rfl
@[simp] theorem crFields_seq (v : Word) (s : State) : (crFields v s).seq = s.seq := rfl
@[simp] theorem crFields_resp (v : Word) (s : State) : (crFields v s).resp = s.resp := rfl
@[simp] theorem crFields_history (v : Word) (s : State) : (crFields v s).history = s.history := rfl
@[simp] theorem crFields_fault (v : Word) (s : State) : (crFields v s).fault = s.fault := rfl
@[simp] theorem crFields_refused (v : Word) (s : State) : (crFields v s).refused = s.refused := rfl
@[simp] theorem crFields_requests (v : Word) (s : State) : (crFields v s).requests = s.requests := rfl
@[simp] theorem crFields_busProbe (v : Word) (s : State) : (crFields v s).busProbe = s.busProbe := rfl
@[simp] theorem crFields_inputs (v : Word) (s : State) : (crFields v s).inputs = s.inputs := rfl
@[simp] theorem crFields_drawn (v : Word) (s : State) : (crFields v s).drawn = s.drawn := rfl

/-! ### `State.logRegister` -/

@[simp] theorem State.logRegister_cfg (wr : Bool) (o : BitVec 26) (v : Option Word) (s : State) : (s.logRegister wr o v).cfg = s.cfg := rfl
@[simp] theorem State.logRegister_flags (wr : Bool) (o : BitVec 26) (v : Option Word) (s : State) : (s.logRegister wr o v).flags = s.flags := rfl
@[simp] theorem State.logRegister_pg (wr : Bool) (o : BitVec 26) (v : Option Word) (s : State) : (s.logRegister wr o v).pg = s.pg := rfl
@[simp] theorem State.logRegister_per (wr : Bool) (o : BitVec 26) (v : Option Word) (s : State) : (s.logRegister wr o v).per = s.per := rfl
@[simp] theorem State.logRegister_pnb (wr : Bool) (o : BitVec 26) (v : Option Word) (s : State) : (s.logRegister wr o v).pnb = s.pnb := rfl
@[simp] theorem State.logRegister_lock (wr : Bool) (o : BitVec 26) (v : Option Word) (s : State) : (s.logRegister wr o v).lock = s.lock := rfl
@[simp] theorem State.logRegister_keyStage (wr : Bool) (o : BitVec 26) (v : Option Word) (s : State) : (s.logRegister wr o v).keyStage = s.keyStage := rfl
@[simp] theorem State.logRegister_latch (wr : Bool) (o : BitVec 26) (v : Option Word) (s : State) : (s.logRegister wr o v).latch = s.latch := rfl
@[simp] theorem State.logRegister_op (wr : Bool) (o : BitVec 26) (v : Option Word) (s : State) : (s.logRegister wr o v).op = s.op := rfl
@[simp] theorem State.logRegister_aborted (wr : Bool) (o : BitVec 26) (v : Option Word) (s : State) : (s.logRegister wr o v).aborted = s.aborted := rfl
@[simp] theorem State.logRegister_array (wr : Bool) (o : BitVec 26) (v : Option Word) (s : State) : (s.logRegister wr o v).array = s.array := rfl
@[simp] theorem State.logRegister_chipSizeCache (wr : Bool) (o : BitVec 26) (v : Option Word) (s : State) : (s.logRegister wr o v).chipSizeCache = s.chipSizeCache := rfl
@[simp] theorem State.logRegister_seq (wr : Bool) (o : BitVec 26) (v : Option Word) (s : State) : (s.logRegister wr o v).seq = s.seq := rfl
@[simp] theorem State.logRegister_resp (wr : Bool) (o : BitVec 26) (v : Option Word) (s : State) : (s.logRegister wr o v).resp = s.resp := rfl
@[simp] theorem State.logRegister_history (wr : Bool) (o : BitVec 26) (v : Option Word) (s : State) : (s.logRegister wr o v).history = s.history ++ [.bus (registerDescriptor wr o) o.toNat v] := rfl
@[simp] theorem State.logRegister_fault (wr : Bool) (o : BitVec 26) (v : Option Word) (s : State) : (s.logRegister wr o v).fault = s.fault := rfl
@[simp] theorem State.logRegister_refused (wr : Bool) (o : BitVec 26) (v : Option Word) (s : State) : (s.logRegister wr o v).refused = s.refused := rfl
@[simp] theorem State.logRegister_requests (wr : Bool) (o : BitVec 26) (v : Option Word) (s : State) : (s.logRegister wr o v).requests = s.requests := rfl
@[simp] theorem State.logRegister_busProbe (wr : Bool) (o : BitVec 26) (v : Option Word) (s : State) : (s.logRegister wr o v).busProbe = s.busProbe := rfl
@[simp] theorem State.logRegister_inputs (wr : Bool) (o : BitVec 26) (v : Option Word) (s : State) : (s.logRegister wr o v).inputs = s.inputs := rfl
@[simp] theorem State.logRegister_drawn (wr : Bool) (o : BitVec 26) (v : Option Word) (s : State) : (s.logRegister wr o v).drawn = s.drawn := rfl

/-! ### `State.logArrayRead` -/

@[simp] theorem State.logArrayRead_cfg (o : Nat) (v : Option Word) (s : State) : (s.logArrayRead o v).cfg = s.cfg := rfl
@[simp] theorem State.logArrayRead_flags (o : Nat) (v : Option Word) (s : State) : (s.logArrayRead o v).flags = s.flags := rfl
@[simp] theorem State.logArrayRead_pg (o : Nat) (v : Option Word) (s : State) : (s.logArrayRead o v).pg = s.pg := rfl
@[simp] theorem State.logArrayRead_per (o : Nat) (v : Option Word) (s : State) : (s.logArrayRead o v).per = s.per := rfl
@[simp] theorem State.logArrayRead_pnb (o : Nat) (v : Option Word) (s : State) : (s.logArrayRead o v).pnb = s.pnb := rfl
@[simp] theorem State.logArrayRead_lock (o : Nat) (v : Option Word) (s : State) : (s.logArrayRead o v).lock = s.lock := rfl
@[simp] theorem State.logArrayRead_keyStage (o : Nat) (v : Option Word) (s : State) : (s.logArrayRead o v).keyStage = s.keyStage := rfl
@[simp] theorem State.logArrayRead_latch (o : Nat) (v : Option Word) (s : State) : (s.logArrayRead o v).latch = s.latch := rfl
@[simp] theorem State.logArrayRead_op (o : Nat) (v : Option Word) (s : State) : (s.logArrayRead o v).op = s.op := rfl
@[simp] theorem State.logArrayRead_aborted (o : Nat) (v : Option Word) (s : State) : (s.logArrayRead o v).aborted = s.aborted := rfl
@[simp] theorem State.logArrayRead_array (o : Nat) (v : Option Word) (s : State) : (s.logArrayRead o v).array = s.array := rfl
@[simp] theorem State.logArrayRead_chipSizeCache (o : Nat) (v : Option Word) (s : State) : (s.logArrayRead o v).chipSizeCache = s.chipSizeCache := rfl
@[simp] theorem State.logArrayRead_seq (o : Nat) (v : Option Word) (s : State) : (s.logArrayRead o v).seq = s.seq := rfl
@[simp] theorem State.logArrayRead_resp (o : Nat) (v : Option Word) (s : State) : (s.logArrayRead o v).resp = s.resp := rfl
@[simp] theorem State.logArrayRead_history (o : Nat) (v : Option Word) (s : State) : (s.logArrayRead o v).history = s.history ++ [.bus (descriptor false spaceArray widthByte (BitVec.ofNat 26 o)) o v] := rfl
@[simp] theorem State.logArrayRead_fault (o : Nat) (v : Option Word) (s : State) : (s.logArrayRead o v).fault = s.fault := rfl
@[simp] theorem State.logArrayRead_refused (o : Nat) (v : Option Word) (s : State) : (s.logArrayRead o v).refused = s.refused := rfl
@[simp] theorem State.logArrayRead_requests (o : Nat) (v : Option Word) (s : State) : (s.logArrayRead o v).requests = s.requests := rfl
@[simp] theorem State.logArrayRead_busProbe (o : Nat) (v : Option Word) (s : State) : (s.logArrayRead o v).busProbe = s.busProbe := rfl
@[simp] theorem State.logArrayRead_inputs (o : Nat) (v : Option Word) (s : State) : (s.logArrayRead o v).inputs = s.inputs := rfl
@[simp] theorem State.logArrayRead_drawn (o : Nat) (v : Option Word) (s : State) : (s.logArrayRead o v).drawn = s.drawn := rfl

/-! ### `State.logArrayWrite` -/

@[simp] theorem State.logArrayWrite_cfg (o : Nat) (w : Word) (s : State) : (s.logArrayWrite o w).cfg = s.cfg := rfl
@[simp] theorem State.logArrayWrite_flags (o : Nat) (w : Word) (s : State) : (s.logArrayWrite o w).flags = s.flags := rfl
@[simp] theorem State.logArrayWrite_pg (o : Nat) (w : Word) (s : State) : (s.logArrayWrite o w).pg = s.pg := rfl
@[simp] theorem State.logArrayWrite_per (o : Nat) (w : Word) (s : State) : (s.logArrayWrite o w).per = s.per := rfl
@[simp] theorem State.logArrayWrite_pnb (o : Nat) (w : Word) (s : State) : (s.logArrayWrite o w).pnb = s.pnb := rfl
@[simp] theorem State.logArrayWrite_lock (o : Nat) (w : Word) (s : State) : (s.logArrayWrite o w).lock = s.lock := rfl
@[simp] theorem State.logArrayWrite_keyStage (o : Nat) (w : Word) (s : State) : (s.logArrayWrite o w).keyStage = s.keyStage := rfl
@[simp] theorem State.logArrayWrite_latch (o : Nat) (w : Word) (s : State) : (s.logArrayWrite o w).latch = s.latch := rfl
@[simp] theorem State.logArrayWrite_op (o : Nat) (w : Word) (s : State) : (s.logArrayWrite o w).op = s.op := rfl
@[simp] theorem State.logArrayWrite_aborted (o : Nat) (w : Word) (s : State) : (s.logArrayWrite o w).aborted = s.aborted := rfl
@[simp] theorem State.logArrayWrite_array (o : Nat) (w : Word) (s : State) : (s.logArrayWrite o w).array = s.array := rfl
@[simp] theorem State.logArrayWrite_chipSizeCache (o : Nat) (w : Word) (s : State) : (s.logArrayWrite o w).chipSizeCache = s.chipSizeCache := rfl
@[simp] theorem State.logArrayWrite_seq (o : Nat) (w : Word) (s : State) : (s.logArrayWrite o w).seq = s.seq := rfl
@[simp] theorem State.logArrayWrite_resp (o : Nat) (w : Word) (s : State) : (s.logArrayWrite o w).resp = s.resp := rfl
@[simp] theorem State.logArrayWrite_history (o : Nat) (w : Word) (s : State) : (s.logArrayWrite o w).history = s.history ++ [.bus (descriptor true spaceArray widthWord (BitVec.ofNat 26 o)) o (some w)] := rfl
@[simp] theorem State.logArrayWrite_fault (o : Nat) (w : Word) (s : State) : (s.logArrayWrite o w).fault = s.fault := rfl
@[simp] theorem State.logArrayWrite_refused (o : Nat) (w : Word) (s : State) : (s.logArrayWrite o w).refused = s.refused := rfl
@[simp] theorem State.logArrayWrite_requests (o : Nat) (w : Word) (s : State) : (s.logArrayWrite o w).requests = s.requests := rfl
@[simp] theorem State.logArrayWrite_busProbe (o : Nat) (w : Word) (s : State) : (s.logArrayWrite o w).busProbe = s.busProbe := rfl
@[simp] theorem State.logArrayWrite_inputs (o : Nat) (w : Word) (s : State) : (s.logArrayWrite o w).inputs = s.inputs := rfl
@[simp] theorem State.logArrayWrite_drawn (o : Nat) (w : Word) (s : State) : (s.logArrayWrite o w).drawn = s.drawn := rfl

/-! ### `busSrRead` -/

@[simp] theorem busSrRead_cfg (s : State) : (busSrRead s).cfg = s.cfg := rfl
@[simp] theorem busSrRead_flags (s : State) : (busSrRead s).flags = s.flags := rfl
@[simp] theorem busSrRead_pg (s : State) : (busSrRead s).pg = s.pg := rfl
@[simp] theorem busSrRead_per (s : State) : (busSrRead s).per = s.per := rfl
@[simp] theorem busSrRead_pnb (s : State) : (busSrRead s).pnb = s.pnb := rfl
@[simp] theorem busSrRead_lock (s : State) : (busSrRead s).lock = s.lock := rfl
@[simp] theorem busSrRead_keyStage (s : State) : (busSrRead s).keyStage = s.keyStage := rfl
@[simp] theorem busSrRead_latch (s : State) : (busSrRead s).latch = s.latch := rfl
@[simp] theorem busSrRead_op (s : State) : (busSrRead s).op = s.op := rfl
@[simp] theorem busSrRead_aborted (s : State) : (busSrRead s).aborted = s.aborted := rfl
@[simp] theorem busSrRead_array (s : State) : (busSrRead s).array = s.array := rfl
@[simp] theorem busSrRead_chipSizeCache (s : State) : (busSrRead s).chipSizeCache = s.chipSizeCache := rfl
@[simp] theorem busSrRead_seq (s : State) : (busSrRead s).seq = s.seq := rfl
@[simp] theorem busSrRead_resp (s : State) : (busSrRead s).resp = s.resp := rfl
@[simp] theorem busSrRead_history (s : State) : (busSrRead s).history = s.history ++ [.bus (registerDescriptor false srOffset) srOffset.toNat (some s.srWord)] := rfl
@[simp] theorem busSrRead_fault (s : State) : (busSrRead s).fault = s.fault := rfl
@[simp] theorem busSrRead_refused (s : State) : (busSrRead s).refused = s.refused := rfl
@[simp] theorem busSrRead_requests (s : State) : (busSrRead s).requests = s.requests := rfl
@[simp] theorem busSrRead_busProbe (s : State) : (busSrRead s).busProbe = s.busProbe := rfl
@[simp] theorem busSrRead_inputs (s : State) : (busSrRead s).inputs = s.inputs := rfl
@[simp] theorem busSrRead_drawn (s : State) : (busSrRead s).drawn = s.drawn := rfl

/-! ### `busSrWrite` -/

@[simp] theorem busSrWrite_cfg (v : Word) (s : State) : (busSrWrite v s).cfg = s.cfg := rfl
@[simp] theorem busSrWrite_flags (v : Word) (s : State) : (busSrWrite v s).flags = clearFlags s.flags v := rfl
@[simp] theorem busSrWrite_pg (v : Word) (s : State) : (busSrWrite v s).pg = s.pg := rfl
@[simp] theorem busSrWrite_per (v : Word) (s : State) : (busSrWrite v s).per = s.per := rfl
@[simp] theorem busSrWrite_pnb (v : Word) (s : State) : (busSrWrite v s).pnb = s.pnb := rfl
@[simp] theorem busSrWrite_lock (v : Word) (s : State) : (busSrWrite v s).lock = s.lock := rfl
@[simp] theorem busSrWrite_keyStage (v : Word) (s : State) : (busSrWrite v s).keyStage = s.keyStage := rfl
@[simp] theorem busSrWrite_latch (v : Word) (s : State) : (busSrWrite v s).latch = s.latch := rfl
@[simp] theorem busSrWrite_op (v : Word) (s : State) : (busSrWrite v s).op = s.op := rfl
@[simp] theorem busSrWrite_aborted (v : Word) (s : State) : (busSrWrite v s).aborted = s.aborted := rfl
@[simp] theorem busSrWrite_array (v : Word) (s : State) : (busSrWrite v s).array = s.array := rfl
@[simp] theorem busSrWrite_chipSizeCache (v : Word) (s : State) : (busSrWrite v s).chipSizeCache = s.chipSizeCache := rfl
@[simp] theorem busSrWrite_seq (v : Word) (s : State) : (busSrWrite v s).seq = s.seq := rfl
@[simp] theorem busSrWrite_resp (v : Word) (s : State) : (busSrWrite v s).resp = s.resp := rfl
@[simp] theorem busSrWrite_history (v : Word) (s : State) : (busSrWrite v s).history = s.history ++ [.bus (registerDescriptor true srOffset) srOffset.toNat (some v)] := rfl
@[simp] theorem busSrWrite_fault (v : Word) (s : State) : (busSrWrite v s).fault = s.fault := rfl
@[simp] theorem busSrWrite_refused (v : Word) (s : State) : (busSrWrite v s).refused = s.refused := rfl
@[simp] theorem busSrWrite_requests (v : Word) (s : State) : (busSrWrite v s).requests = s.requests := rfl
@[simp] theorem busSrWrite_busProbe (v : Word) (s : State) : (busSrWrite v s).busProbe = s.busProbe := rfl
@[simp] theorem busSrWrite_inputs (v : Word) (s : State) : (busSrWrite v s).inputs = s.inputs := rfl
@[simp] theorem busSrWrite_drawn (v : Word) (s : State) : (busSrWrite v s).drawn = s.drawn := rfl

/-! ### `busCrRead` -/

@[simp] theorem busCrRead_cfg (s : State) : (busCrRead s).cfg = s.cfg := rfl
@[simp] theorem busCrRead_flags (s : State) : (busCrRead s).flags = s.flags := rfl
@[simp] theorem busCrRead_pg (s : State) : (busCrRead s).pg = s.pg := rfl
@[simp] theorem busCrRead_per (s : State) : (busCrRead s).per = s.per := rfl
@[simp] theorem busCrRead_pnb (s : State) : (busCrRead s).pnb = s.pnb := rfl
@[simp] theorem busCrRead_lock (s : State) : (busCrRead s).lock = s.lock := rfl
@[simp] theorem busCrRead_keyStage (s : State) : (busCrRead s).keyStage = s.keyStage := rfl
@[simp] theorem busCrRead_latch (s : State) : (busCrRead s).latch = s.latch := rfl
@[simp] theorem busCrRead_op (s : State) : (busCrRead s).op = s.op := rfl
@[simp] theorem busCrRead_aborted (s : State) : (busCrRead s).aborted = s.aborted := rfl
@[simp] theorem busCrRead_array (s : State) : (busCrRead s).array = s.array := rfl
@[simp] theorem busCrRead_chipSizeCache (s : State) : (busCrRead s).chipSizeCache = s.chipSizeCache := rfl
@[simp] theorem busCrRead_seq (s : State) : (busCrRead s).seq = s.seq := rfl
@[simp] theorem busCrRead_resp (s : State) : (busCrRead s).resp = s.resp := rfl
@[simp] theorem busCrRead_history (s : State) : (busCrRead s).history = s.history ++ [.bus (registerDescriptor false crOffset) crOffset.toNat (some s.crWord)] := rfl
@[simp] theorem busCrRead_fault (s : State) : (busCrRead s).fault = s.fault := rfl
@[simp] theorem busCrRead_refused (s : State) : (busCrRead s).refused = s.refused := rfl
@[simp] theorem busCrRead_requests (s : State) : (busCrRead s).requests = s.requests := rfl
@[simp] theorem busCrRead_busProbe (s : State) : (busCrRead s).busProbe = s.busProbe := rfl
@[simp] theorem busCrRead_inputs (s : State) : (busCrRead s).inputs = s.inputs := rfl
@[simp] theorem busCrRead_drawn (s : State) : (busCrRead s).drawn = s.drawn := rfl

/-! ### `busKeyWrite` -/

@[simp] theorem busKeyWrite_cfg (v : Word) (s : State) : (busKeyWrite v s).cfg = s.cfg := rfl
@[simp] theorem busKeyWrite_flags (v : Word) (s : State) : (busKeyWrite v s).flags = s.flags := rfl
@[simp] theorem busKeyWrite_pg (v : Word) (s : State) : (busKeyWrite v s).pg = s.pg := rfl
@[simp] theorem busKeyWrite_per (v : Word) (s : State) : (busKeyWrite v s).per = s.per := rfl
@[simp] theorem busKeyWrite_pnb (v : Word) (s : State) : (busKeyWrite v s).pnb = s.pnb := rfl
@[simp] theorem busKeyWrite_lock (v : Word) (s : State) : (busKeyWrite v s).lock = (s.lock && !keyUnlocks v s) := rfl
@[simp] theorem busKeyWrite_keyStage (v : Word) (s : State) : (busKeyWrite v s).keyStage = (if s.lock then nextKeyStage v s else s.keyStage) := rfl
@[simp] theorem busKeyWrite_latch (v : Word) (s : State) : (busKeyWrite v s).latch = s.latch := rfl
@[simp] theorem busKeyWrite_op (v : Word) (s : State) : (busKeyWrite v s).op = s.op := rfl
@[simp] theorem busKeyWrite_aborted (v : Word) (s : State) : (busKeyWrite v s).aborted = s.aborted := rfl
@[simp] theorem busKeyWrite_array (v : Word) (s : State) : (busKeyWrite v s).array = s.array := rfl
@[simp] theorem busKeyWrite_chipSizeCache (v : Word) (s : State) : (busKeyWrite v s).chipSizeCache = s.chipSizeCache := rfl
@[simp] theorem busKeyWrite_seq (v : Word) (s : State) : (busKeyWrite v s).seq = s.seq := rfl
@[simp] theorem busKeyWrite_resp (v : Word) (s : State) : (busKeyWrite v s).resp = s.resp := rfl
@[simp] theorem busKeyWrite_history (v : Word) (s : State) : (busKeyWrite v s).history = s.history ++ [.bus (registerDescriptor true keyrOffset) keyrOffset.toNat (some v)] := rfl
@[simp] theorem busKeyWrite_fault (v : Word) (s : State) : (busKeyWrite v s).fault = s.fault := rfl
@[simp] theorem busKeyWrite_refused (v : Word) (s : State) : (busKeyWrite v s).refused = s.refused := rfl
@[simp] theorem busKeyWrite_requests (v : Word) (s : State) : (busKeyWrite v s).requests = s.requests := rfl
@[simp] theorem busKeyWrite_busProbe (v : Word) (s : State) : (busKeyWrite v s).busProbe = s.busProbe := rfl
@[simp] theorem busKeyWrite_inputs (v : Word) (s : State) : (busKeyWrite v s).inputs = s.inputs := rfl
@[simp] theorem busKeyWrite_drawn (v : Word) (s : State) : (busKeyWrite v s).drawn = s.drawn := rfl

/-! ### `busKeyRead` -/

@[simp] theorem busKeyRead_cfg (s : State) : (busKeyRead s).cfg = s.cfg := rfl
@[simp] theorem busKeyRead_flags (s : State) : (busKeyRead s).flags = s.flags := rfl
@[simp] theorem busKeyRead_pg (s : State) : (busKeyRead s).pg = s.pg := rfl
@[simp] theorem busKeyRead_per (s : State) : (busKeyRead s).per = s.per := rfl
@[simp] theorem busKeyRead_pnb (s : State) : (busKeyRead s).pnb = s.pnb := rfl
@[simp] theorem busKeyRead_lock (s : State) : (busKeyRead s).lock = s.lock := rfl
@[simp] theorem busKeyRead_keyStage (s : State) : (busKeyRead s).keyStage = s.keyStage := rfl
@[simp] theorem busKeyRead_latch (s : State) : (busKeyRead s).latch = s.latch := rfl
@[simp] theorem busKeyRead_op (s : State) : (busKeyRead s).op = s.op := rfl
@[simp] theorem busKeyRead_aborted (s : State) : (busKeyRead s).aborted = s.aborted := rfl
@[simp] theorem busKeyRead_array (s : State) : (busKeyRead s).array = s.array := rfl
@[simp] theorem busKeyRead_chipSizeCache (s : State) : (busKeyRead s).chipSizeCache = s.chipSizeCache := rfl
@[simp] theorem busKeyRead_seq (s : State) : (busKeyRead s).seq = s.seq := rfl
@[simp] theorem busKeyRead_resp (s : State) : (busKeyRead s).resp = s.resp := rfl
@[simp] theorem busKeyRead_history (s : State) : (busKeyRead s).history = s.history ++ [.bus (registerDescriptor false keyrOffset) keyrOffset.toNat (some (s.drawAt 0))] := rfl
@[simp] theorem busKeyRead_fault (s : State) : (busKeyRead s).fault = s.fault := rfl
@[simp] theorem busKeyRead_refused (s : State) : (busKeyRead s).refused = s.refused := rfl
@[simp] theorem busKeyRead_requests (s : State) : (busKeyRead s).requests = s.requests := rfl
@[simp] theorem busKeyRead_busProbe (s : State) : (busKeyRead s).busProbe = s.busProbe := rfl
@[simp] theorem busKeyRead_inputs (s : State) : (busKeyRead s).inputs = s.inputs.drop 1 := rfl
@[simp] theorem busKeyRead_drawn (s : State) : (busKeyRead s).drawn = s.drawn + (1 - s.inputs.length) := rfl

/-! ### `busFuseRead` -/

@[simp] theorem busFuseRead_cfg (s : State) : (busFuseRead s).cfg = s.cfg := rfl
@[simp] theorem busFuseRead_flags (s : State) : (busFuseRead s).flags = s.flags := rfl
@[simp] theorem busFuseRead_pg (s : State) : (busFuseRead s).pg = s.pg := rfl
@[simp] theorem busFuseRead_per (s : State) : (busFuseRead s).per = s.per := rfl
@[simp] theorem busFuseRead_pnb (s : State) : (busFuseRead s).pnb = s.pnb := rfl
@[simp] theorem busFuseRead_lock (s : State) : (busFuseRead s).lock = s.lock := rfl
@[simp] theorem busFuseRead_keyStage (s : State) : (busFuseRead s).keyStage = s.keyStage := rfl
@[simp] theorem busFuseRead_latch (s : State) : (busFuseRead s).latch = s.latch := rfl
@[simp] theorem busFuseRead_op (s : State) : (busFuseRead s).op = s.op := rfl
@[simp] theorem busFuseRead_aborted (s : State) : (busFuseRead s).aborted = s.aborted := rfl
@[simp] theorem busFuseRead_array (s : State) : (busFuseRead s).array = s.array := rfl
@[simp] theorem busFuseRead_chipSizeCache (s : State) : (busFuseRead s).chipSizeCache = s.chipSizeCache := rfl
@[simp] theorem busFuseRead_seq (s : State) : (busFuseRead s).seq = s.seq := rfl
@[simp] theorem busFuseRead_resp (s : State) : (busFuseRead s).resp = s.resp := rfl
@[simp] theorem busFuseRead_history (s : State) : (busFuseRead s).history = s.history ++ [.bus (descriptor false spaceFuse widthHalf 0) 0 (some (s.cfg.fuseValue.setWidth 32))] := rfl
@[simp] theorem busFuseRead_fault (s : State) : (busFuseRead s).fault = s.fault := rfl
@[simp] theorem busFuseRead_refused (s : State) : (busFuseRead s).refused = s.refused := rfl
@[simp] theorem busFuseRead_requests (s : State) : (busFuseRead s).requests = s.requests := rfl
@[simp] theorem busFuseRead_busProbe (s : State) : (busFuseRead s).busProbe = s.busProbe := rfl
@[simp] theorem busFuseRead_inputs (s : State) : (busFuseRead s).inputs = s.inputs := rfl
@[simp] theorem busFuseRead_drawn (s : State) : (busFuseRead s).drawn = s.drawn := rfl

/-! ### `discoverCapacity` -/

@[simp] theorem discoverCapacity_cfg (s : State) : (discoverCapacity s).cfg = s.cfg := rfl
@[simp] theorem discoverCapacity_flags (s : State) : (discoverCapacity s).flags = s.flags := rfl
@[simp] theorem discoverCapacity_pg (s : State) : (discoverCapacity s).pg = s.pg := rfl
@[simp] theorem discoverCapacity_per (s : State) : (discoverCapacity s).per = s.per := rfl
@[simp] theorem discoverCapacity_pnb (s : State) : (discoverCapacity s).pnb = s.pnb := rfl
@[simp] theorem discoverCapacity_lock (s : State) : (discoverCapacity s).lock = s.lock := rfl
@[simp] theorem discoverCapacity_keyStage (s : State) : (discoverCapacity s).keyStage = s.keyStage := rfl
@[simp] theorem discoverCapacity_latch (s : State) : (discoverCapacity s).latch = s.latch := rfl
@[simp] theorem discoverCapacity_op (s : State) : (discoverCapacity s).op = s.op := rfl
@[simp] theorem discoverCapacity_aborted (s : State) : (discoverCapacity s).aborted = s.aborted := rfl
@[simp] theorem discoverCapacity_array (s : State) : (discoverCapacity s).array = s.array := rfl
@[simp] theorem discoverCapacity_chipSizeCache (s : State) : (discoverCapacity s).chipSizeCache = chipSizeOf s.cfg.fuseValue := rfl
@[simp] theorem discoverCapacity_seq (s : State) : (discoverCapacity s).seq = s.seq := rfl
@[simp] theorem discoverCapacity_resp (s : State) : (discoverCapacity s).resp = s.resp := rfl
@[simp] theorem discoverCapacity_history (s : State) : (discoverCapacity s).history = s.history ++ [.bus (descriptor false spaceFuse widthHalf 0) 0 (some (s.cfg.fuseValue.setWidth 32))] := rfl
@[simp] theorem discoverCapacity_fault (s : State) : (discoverCapacity s).fault = s.fault := rfl
@[simp] theorem discoverCapacity_refused (s : State) : (discoverCapacity s).refused = s.refused := rfl
@[simp] theorem discoverCapacity_requests (s : State) : (discoverCapacity s).requests = s.requests := rfl
@[simp] theorem discoverCapacity_busProbe (s : State) : (discoverCapacity s).busProbe = s.busProbe := rfl
@[simp] theorem discoverCapacity_inputs (s : State) : (discoverCapacity s).inputs = s.inputs := rfl
@[simp] theorem discoverCapacity_drawn (s : State) : (discoverCapacity s).drawn = s.drawn := rfl

/-! ### `finishOp` -/

@[simp] theorem finishOp_cfg (op : Op) (s : State) : (finishOp op s).cfg = s.cfg := rfl
@[simp] theorem finishOp_flags (op : Op) (s : State) : (finishOp op s).flags = drawFlags (s.drawAt 0) := rfl
@[simp] theorem finishOp_pg (op : Op) (s : State) : (finishOp op s).pg = s.pg := rfl
@[simp] theorem finishOp_per (op : Op) (s : State) : (finishOp op s).per = s.per := rfl
@[simp] theorem finishOp_pnb (op : Op) (s : State) : (finishOp op s).pnb = s.pnb := rfl
@[simp] theorem finishOp_lock (op : Op) (s : State) : (finishOp op s).lock = s.lock := rfl
@[simp] theorem finishOp_keyStage (op : Op) (s : State) : (finishOp op s).keyStage = s.keyStage := rfl
@[simp] theorem finishOp_latch (op : Op) (s : State) : (finishOp op s).latch = s.latch := rfl
@[simp] theorem finishOp_op (op : Op) (s : State) : (finishOp op s).op = .none := rfl
@[simp] theorem finishOp_aborted (op : Op) (s : State) : (finishOp op s).aborted = false := rfl
@[simp] theorem finishOp_array (op : Op) (s : State) : (finishOp op s).array = s.array := rfl
@[simp] theorem finishOp_chipSizeCache (op : Op) (s : State) : (finishOp op s).chipSizeCache = s.chipSizeCache := rfl
@[simp] theorem finishOp_seq (op : Op) (s : State) : (finishOp op s).seq = s.seq := rfl
@[simp] theorem finishOp_resp (op : Op) (s : State) : (finishOp op s).resp = s.resp := rfl
@[simp] theorem finishOp_history (op : Op) (s : State) : (finishOp op s).history = s.history ++ [.completion op] := rfl
@[simp] theorem finishOp_fault (op : Op) (s : State) : (finishOp op s).fault = s.fault := rfl
@[simp] theorem finishOp_refused (op : Op) (s : State) : (finishOp op s).refused = s.refused := rfl
@[simp] theorem finishOp_requests (op : Op) (s : State) : (finishOp op s).requests = s.requests := rfl
@[simp] theorem finishOp_busProbe (op : Op) (s : State) : (finishOp op s).busProbe = s.busProbe := rfl
@[simp] theorem finishOp_inputs (op : Op) (s : State) : (finishOp op s).inputs = s.inputs.drop 1 := rfl
@[simp] theorem finishOp_drawn (op : Op) (s : State) : (finishOp op s).drawn = s.drawn + (1 - s.inputs.length) := rfl

/-! ### `State.afterStartDraw`: only the draws -/

@[simp] theorem State.afterStartDraw_cfg (s : State) : (s.afterStartDraw).cfg = s.cfg := by
  unfold State.afterStartDraw; split <;> rfl
@[simp] theorem State.afterStartDraw_flags (s : State) : (s.afterStartDraw).flags = s.flags := by
  unfold State.afterStartDraw; split <;> rfl
@[simp] theorem State.afterStartDraw_pg (s : State) : (s.afterStartDraw).pg = s.pg := by
  unfold State.afterStartDraw; split <;> rfl
@[simp] theorem State.afterStartDraw_per (s : State) : (s.afterStartDraw).per = s.per := by
  unfold State.afterStartDraw; split <;> rfl
@[simp] theorem State.afterStartDraw_pnb (s : State) : (s.afterStartDraw).pnb = s.pnb := by
  unfold State.afterStartDraw; split <;> rfl
@[simp] theorem State.afterStartDraw_lock (s : State) : (s.afterStartDraw).lock = s.lock := by
  unfold State.afterStartDraw; split <;> rfl
@[simp] theorem State.afterStartDraw_keyStage (s : State) : (s.afterStartDraw).keyStage = s.keyStage := by
  unfold State.afterStartDraw; split <;> rfl
@[simp] theorem State.afterStartDraw_latch (s : State) : (s.afterStartDraw).latch = s.latch := by
  unfold State.afterStartDraw; split <;> rfl
@[simp] theorem State.afterStartDraw_op (s : State) : (s.afterStartDraw).op = s.op := by
  unfold State.afterStartDraw; split <;> rfl
@[simp] theorem State.afterStartDraw_aborted (s : State) : (s.afterStartDraw).aborted = s.aborted := by
  unfold State.afterStartDraw; split <;> rfl
@[simp] theorem State.afterStartDraw_array (s : State) : (s.afterStartDraw).array = s.array := by
  unfold State.afterStartDraw; split <;> rfl
@[simp] theorem State.afterStartDraw_chipSizeCache (s : State) : (s.afterStartDraw).chipSizeCache = s.chipSizeCache := by
  unfold State.afterStartDraw; split <;> rfl
@[simp] theorem State.afterStartDraw_seq (s : State) : (s.afterStartDraw).seq = s.seq := by
  unfold State.afterStartDraw; split <;> rfl
@[simp] theorem State.afterStartDraw_resp (s : State) : (s.afterStartDraw).resp = s.resp := by
  unfold State.afterStartDraw; split <;> rfl
@[simp] theorem State.afterStartDraw_history (s : State) : (s.afterStartDraw).history = s.history := by
  unfold State.afterStartDraw; split <;> rfl
@[simp] theorem State.afterStartDraw_fault (s : State) : (s.afterStartDraw).fault = s.fault := by
  unfold State.afterStartDraw; split <;> rfl
@[simp] theorem State.afterStartDraw_refused (s : State) : (s.afterStartDraw).refused = s.refused := by
  unfold State.afterStartDraw; split <;> rfl
@[simp] theorem State.afterStartDraw_requests (s : State) : (s.afterStartDraw).requests = s.requests := by
  unfold State.afterStartDraw; split <;> rfl
@[simp] theorem State.afterStartDraw_busProbe (s : State) : (s.afterStartDraw).busProbe = s.busProbe := by
  unfold State.afterStartDraw; split <;> rfl

/-! ### `State.afterReadDraw`: only the draws -/

@[simp] theorem State.afterReadDraw_cfg (s : State) : (s.afterReadDraw).cfg = s.cfg := by
  unfold State.afterReadDraw; split <;> rfl
@[simp] theorem State.afterReadDraw_flags (s : State) : (s.afterReadDraw).flags = s.flags := by
  unfold State.afterReadDraw; split <;> rfl
@[simp] theorem State.afterReadDraw_pg (s : State) : (s.afterReadDraw).pg = s.pg := by
  unfold State.afterReadDraw; split <;> rfl
@[simp] theorem State.afterReadDraw_per (s : State) : (s.afterReadDraw).per = s.per := by
  unfold State.afterReadDraw; split <;> rfl
@[simp] theorem State.afterReadDraw_pnb (s : State) : (s.afterReadDraw).pnb = s.pnb := by
  unfold State.afterReadDraw; split <;> rfl
@[simp] theorem State.afterReadDraw_lock (s : State) : (s.afterReadDraw).lock = s.lock := by
  unfold State.afterReadDraw; split <;> rfl
@[simp] theorem State.afterReadDraw_keyStage (s : State) : (s.afterReadDraw).keyStage = s.keyStage := by
  unfold State.afterReadDraw; split <;> rfl
@[simp] theorem State.afterReadDraw_latch (s : State) : (s.afterReadDraw).latch = s.latch := by
  unfold State.afterReadDraw; split <;> rfl
@[simp] theorem State.afterReadDraw_op (s : State) : (s.afterReadDraw).op = s.op := by
  unfold State.afterReadDraw; split <;> rfl
@[simp] theorem State.afterReadDraw_aborted (s : State) : (s.afterReadDraw).aborted = s.aborted := by
  unfold State.afterReadDraw; split <;> rfl
@[simp] theorem State.afterReadDraw_array (s : State) : (s.afterReadDraw).array = s.array := by
  unfold State.afterReadDraw; split <;> rfl
@[simp] theorem State.afterReadDraw_chipSizeCache (s : State) : (s.afterReadDraw).chipSizeCache = s.chipSizeCache := by
  unfold State.afterReadDraw; split <;> rfl
@[simp] theorem State.afterReadDraw_seq (s : State) : (s.afterReadDraw).seq = s.seq := by
  unfold State.afterReadDraw; split <;> rfl
@[simp] theorem State.afterReadDraw_resp (s : State) : (s.afterReadDraw).resp = s.resp := by
  unfold State.afterReadDraw; split <;> rfl
@[simp] theorem State.afterReadDraw_history (s : State) : (s.afterReadDraw).history = s.history := by
  unfold State.afterReadDraw; split <;> rfl
@[simp] theorem State.afterReadDraw_fault (s : State) : (s.afterReadDraw).fault = s.fault := by
  unfold State.afterReadDraw; split <;> rfl
@[simp] theorem State.afterReadDraw_refused (s : State) : (s.afterReadDraw).refused = s.refused := by
  unfold State.afterReadDraw; split <;> rfl
@[simp] theorem State.afterReadDraw_requests (s : State) : (s.afterReadDraw).requests = s.requests := by
  unfold State.afterReadDraw; split <;> rfl
@[simp] theorem State.afterReadDraw_busProbe (s : State) : (s.afterReadDraw).busProbe = s.busProbe := by
  unfold State.afterReadDraw; split <;> rfl

/-! ### `State.accept`: only the sequencer -/

@[simp] theorem State.accept_cfg (cmd : Command) (s : State) : (s.accept cmd).cfg = s.cfg := rfl
@[simp] theorem State.accept_flags (cmd : Command) (s : State) : (s.accept cmd).flags = s.flags := rfl
@[simp] theorem State.accept_pg (cmd : Command) (s : State) : (s.accept cmd).pg = s.pg := rfl
@[simp] theorem State.accept_per (cmd : Command) (s : State) : (s.accept cmd).per = s.per := rfl
@[simp] theorem State.accept_pnb (cmd : Command) (s : State) : (s.accept cmd).pnb = s.pnb := rfl
@[simp] theorem State.accept_lock (cmd : Command) (s : State) : (s.accept cmd).lock = s.lock := rfl
@[simp] theorem State.accept_keyStage (cmd : Command) (s : State) : (s.accept cmd).keyStage = s.keyStage := rfl
@[simp] theorem State.accept_latch (cmd : Command) (s : State) : (s.accept cmd).latch = s.latch := rfl
@[simp] theorem State.accept_op (cmd : Command) (s : State) : (s.accept cmd).op = s.op := rfl
@[simp] theorem State.accept_aborted (cmd : Command) (s : State) : (s.accept cmd).aborted = s.aborted := rfl
@[simp] theorem State.accept_array (cmd : Command) (s : State) : (s.accept cmd).array = s.array := rfl
@[simp] theorem State.accept_chipSizeCache (cmd : Command) (s : State) : (s.accept cmd).chipSizeCache = s.chipSizeCache := rfl
@[simp] theorem State.accept_resp (cmd : Command) (s : State) : (s.accept cmd).resp = s.resp := rfl
@[simp] theorem State.accept_history (cmd : Command) (s : State) : (s.accept cmd).history = s.history := rfl
@[simp] theorem State.accept_fault (cmd : Command) (s : State) : (s.accept cmd).fault = s.fault := rfl
@[simp] theorem State.accept_refused (cmd : Command) (s : State) : (s.accept cmd).refused = s.refused := rfl
@[simp] theorem State.accept_requests (cmd : Command) (s : State) : (s.accept cmd).requests = s.requests := rfl
@[simp] theorem State.accept_busProbe (cmd : Command) (s : State) : (s.accept cmd).busProbe = s.busProbe := rfl
@[simp] theorem State.accept_inputs (cmd : Command) (s : State) : (s.accept cmd).inputs = s.inputs := rfl
@[simp] theorem State.accept_drawn (cmd : Command) (s : State) : (s.accept cmd).drawn = s.drawn := rfl

end Sys2Proof.Machine
end

