-- ==== Sys2Proof/Laws/Machine.lean ====
section
/-! SUPPORT. What each shared operation can do, said once: the outcomes, the transactions, the flash FSM and the sequencer's
run. -/

namespace Sys2Proof.Machine

/-! ### Outcomes -/

/-- A state with no record goes on. -/
theorem outcome_of_live {s : State} (h : s.live = true) : outcome s = .next s := by
  simp only [State.live, Bool.and_eq_true, Option.isNone_iff_eq_none] at h
  simp [outcome, h.1, h.2]

/-- The machine goes on exactly from a state with no record, and with that state. -/
theorem outcome_eq_next_iff {s t : State} : outcome s = .next t ↔ s.live = true ∧ t = s := by
  constructor
  · intro h
    unfold outcome at h
    split at h
    · simp at h
    · split at h
      · simp at h
      · rename_i hf _ hr
        simp only [Host.Outcome.next.injEq] at h
        exact ⟨by simp [State.live, hf, hr], h.symm⟩
  · rintro ⟨h, rfl⟩; exact outcome_of_live h

/-- A recorded refusal, with no fault recorded, is the outcome. -/
theorem outcome_of_refused {s : State} {why : RefuseReason} (hf : s.fault = none) (hr : s.refused = some why) :
    outcome s = .refused (.recorded why s) := by
  simp [outcome, hf, hr]

/-- A recorded fault is the outcome. -/
theorem outcome_of_fault {s : State} {f : FaultRecord} (hf : s.fault = some f) :
    outcome s = .fault (.busFault f.offset f.word s) := by
  simp [outcome, hf]

/-- Live means neither record. -/
theorem live_iff {s : State} : s.live = true ↔ s.fault = none ∧ s.refused = none := by
  simp [State.live]

/-- Live depends on the two records alone. -/
theorem live_congr {s t : State} (hf : s.fault = t.fault) (hr : s.refused = t.refused) : s.live = t.live := by
  simp [State.live, hf, hr]

/-- A refused state is not live. -/
@[simp] theorem refuse_live (s : State) (why : RefuseReason) : (s.refuse why).live = false := by
  simp [State.live, State.refuse]

/-- A faulted state is not live. -/
@[simp] theorem recordFault_live (s : State) (o : Nat) (w : Word) : (s.recordFault o w).live = false := by
  simp [State.live, State.recordFault]

/-- A transaction in a live state. -/
theorem transaction_of_live {f : State → State} {s : State} (h : s.live = true) : transaction f s = outcome (f s) := by
  simp [transaction, h]

/-- A transaction goes on exactly when the machine is live before and after it. -/
theorem transaction_eq_next_iff {f : State → State} {s t : State} :
    transaction f s = .next t ↔ s.live = true ∧ (f s).live = true ∧ t = f s := by
  unfold transaction
  cases h : s.live with
  | true => simp [outcome_eq_next_iff]
  | false => simp [outcome_eq_next_iff, h]

/-- A command goes on exactly from a live machine whose sequencer is idle, to the state its run leaves, which is live. -/
theorem runCommand_eq_next_iff {cmd : Command} {s t : State} :
    runCommand cmd s = .next t ↔ s.live = true ∧ s.seq = .idle ∧
      (runSequencer (commandBound s.cfg cmd) (s.accept cmd)).live = true ∧
      t = runSequencer (commandBound s.cfg cmd) (s.accept cmd) := by
  unfold runCommand
  cases h : s.live with
  | true =>
    cases hq : s.seq with
    | idle => simp [outcome_eq_next_iff]
    | running r => simp
  | false => simp [outcome_eq_next_iff, h]

/-- A command issued to a ready machine. -/
theorem runCommand_of_ready {cmd : Command} {s : State} (h : Ready s) :
    runCommand cmd s = outcome (runSequencer (commandBound s.cfg cmd) (s.accept cmd)) := by
  simp [runCommand, h.1, h.2]

/-! ### Running the sequencer -/

/-- One more step of the run, while the command goes on. -/
theorem runSequencer_succ_of_sequencing {n : Nat} {s : State} (h : (sequencerTurn s).sequencing = true) :
    runSequencer (n + 1) s = runSequencer n (fsmTurn (sequencerTurn s)) := by
  simp [runSequencer, h]

/-- The run ends with the step after which the command does not go on. -/
theorem runSequencer_of_not_sequencing {n : Nat} {s : State} (h : (sequencerTurn s).sequencing = false) :
    runSequencer n s = sequencerTurn s := by
  cases n <;> simp [runSequencer, h]

/-- What the sequencer's turn and the flash FSM's turn both keep, a run keeps. -/
theorem runSequencer_keeps {P : State → Prop} (hseq : ∀ s, P s → P (sequencerTurn s)) (hfsm : ∀ s, P s → P (fsmTurn s))
    (n : Nat) (s : State) (h : P s) : P (runSequencer n s) := by
  induction n generalizing s with
  | zero => exact hseq s h
  | succ n ih =>
    unfold runSequencer
    split
    · exact ih _ (hfsm _ (hseq s h))
    · exact hseq s h

/-- The sequencer's turn while it runs a command. -/
theorem sequencerTurn_of_running {s : State} {r : Run} (h : s.seq = .running r) : sequencerTurn s = sequencerStep r s := by
  simp [sequencerTurn, h]

/-- The sequencer's turn while it is idle. -/
theorem sequencerTurn_of_idle {s : State} (h : s.seq = .idle) : sequencerTurn s = s := by
  simp [sequencerTurn, h]

/-- Going on after a transaction that stopped nothing. -/
theorem andThen_of_live {s : State} {k : State → State} (h : s.live = true) : s.andThen k = k s := by
  simp [State.andThen, h]

/-! ### The sequencer's steps -/

/-- A first step that discovers, with the capacity not cached: the fuse read. -/
theorem stepDiscover_of_unknown {r : Run} {s : State} (h : s.chipSizeCache = 0) : stepDiscover r s = stepFuse r s := by
  simp [stepDiscover, h]

/-- A first step with the capacity cached: a response, BUSY_CHECK, or the first byte read, as the checks say. -/
theorem stepDiscover_cases {r : Run} {s : State} (h : s.chipSizeCache ≠ 0) :
    (∃ x, afterDiscover s.cfg s.chipSizeCache r.cmd = .respond x ∧ stepDiscover r s = s.respond x.status x.value x.data) ∨
    (afterDiscover s.cfg s.chipSizeCache r.cmd = .busyCheck ∧ stepDiscover r s = stepBusy r s) ∨
    (afterDiscover s.cfg s.chipSizeCache r.cmd = .byteReads ∧ stepDiscover r s = stepByteRead r s) := by
  unfold stepDiscover
  rw [if_neg h]
  cases afterDiscover s.cfg s.chipSizeCache r.cmd with
  | respond x => exact .inl ⟨x, rfl, rfl⟩
  | busyCheck => exact .inr (.inl ⟨rfl, rfl⟩)
  | byteReads => exact .inr (.inr ⟨rfl, rfl⟩)

/-- The refusal of a page above 63 records it and assigns the page register; nothing else changes. -/
theorem refusePage_eq (page : Nat) (r : Run) (s : State) :
    refusePage page r s =
      { s with
        seq := .running { r with regs := { r.regs with p := BitVec.ofNat 32 page } }
        refused := some .pageIndexWidth } := rfl

/-- The start of an erase page: refused above 63, else the status clear with the page register assigned. -/
theorem stepClearBefore_erase {unit : Nat} {r : Run} {a b : Word} (s : State) (h : r.cmd = .erase a b) :
    63 < unit ∧ stepClearBefore unit r s = refusePage unit r s ∨
    unit ≤ 63 ∧ stepClearBefore unit r s =
      (busSrWrite srClear s).goto r .modeRead { r.regs with p := BitVec.ofNat 32 unit } := by
  unfold stepClearBefore
  rw [h]
  by_cases hu : unit > 63
  · exact .inl ⟨hu, if_pos hu⟩
  · exact .inr ⟨by omega, if_neg hu⟩

/-- A poll read goes on while the block is busy and the budget lasts; else the status clear comes next. -/
theorem stepPoll_phase {k : Nat} {r : Run} {s : State} :
    ∃ g : Regs, stepPoll k r s = (busSrRead s).goto r
      (if s.bsy = true ∧ k < (pollBudget s.cfg r.cmd).toNat then .poll (k + 1) else .clearAfter) g ∧ g.s = s.srWord := by
  unfold stepPoll
  split
  · exact ⟨_, rfl, rfl⟩
  · exact ⟨_, rfl, rfl⟩

/-! ### The flash FSM -/

/-- The flash FSM has no turn while no operation is in flight. -/
theorem fsmTurn_of_no_op {s : State} (h : s.op = .none) : fsmTurn s = s := by
  simp [fsmTurn, h]

/-- The flash FSM's turn: nothing, a draw that says not now, or a draw and the completion step. -/
theorem fsmTurn_cases (s : State) :
    fsmTurn s = s ∧ (s.live = false ∨ s.op = .none) ∨
    s.live = true ∧ s.op ≠ .none ∧
      (fsmTurn s = s.afterDraws 1 ∧ drawBit (s.drawAt 0) = false ∨
       fsmTurn s = fsmComplete (s.afterDraws 1) ∧ drawBit (s.drawAt 0) = true) := by
  unfold fsmTurn
  by_cases h : s.live = false ∨ s.op = .none
  · simp [h]
  · rw [if_neg h]
    rw [not_or] at h
    refine .inr ⟨by simpa using h.1, h.2, ?_⟩
    cases hd : drawBit (s.drawAt 0) <;> simp

/-! ### Completion changes the array alone, before the common effect -/

@[simp] theorem completeErase_cfg (p : BitVec 6) (s : State) : (completeErase p s).cfg = s.cfg := by
  unfold completeErase; split <;> try split
  all_goals rfl
@[simp] theorem completeErase_flags (p : BitVec 6) (s : State) : (completeErase p s).flags = s.flags := by
  unfold completeErase; split <;> try split
  all_goals rfl
@[simp] theorem completeErase_pg (p : BitVec 6) (s : State) : (completeErase p s).pg = s.pg := by
  unfold completeErase; split <;> try split
  all_goals rfl
@[simp] theorem completeErase_per (p : BitVec 6) (s : State) : (completeErase p s).per = s.per := by
  unfold completeErase; split <;> try split
  all_goals rfl
@[simp] theorem completeErase_pnb (p : BitVec 6) (s : State) : (completeErase p s).pnb = s.pnb := by
  unfold completeErase; split <;> try split
  all_goals rfl
@[simp] theorem completeErase_lock (p : BitVec 6) (s : State) : (completeErase p s).lock = s.lock := by
  unfold completeErase; split <;> try split
  all_goals rfl
@[simp] theorem completeErase_keyStage (p : BitVec 6) (s : State) : (completeErase p s).keyStage = s.keyStage := by
  unfold completeErase; split <;> try split
  all_goals rfl
@[simp] theorem completeErase_latch (p : BitVec 6) (s : State) : (completeErase p s).latch = s.latch := by
  unfold completeErase; split <;> try split
  all_goals rfl
@[simp] theorem completeErase_op (p : BitVec 6) (s : State) : (completeErase p s).op = s.op := by
  unfold completeErase; split <;> try split
  all_goals rfl
@[simp] theorem completeErase_aborted (p : BitVec 6) (s : State) : (completeErase p s).aborted = s.aborted := by
  unfold completeErase; split <;> try split
  all_goals rfl
@[simp] theorem completeErase_chipSizeCache (p : BitVec 6) (s : State) : (completeErase p s).chipSizeCache = s.chipSizeCache := by
  unfold completeErase; split <;> try split
  all_goals rfl
@[simp] theorem completeErase_seq (p : BitVec 6) (s : State) : (completeErase p s).seq = s.seq := by
  unfold completeErase; split <;> try split
  all_goals rfl
@[simp] theorem completeErase_resp (p : BitVec 6) (s : State) : (completeErase p s).resp = s.resp := by
  unfold completeErase; split <;> try split
  all_goals rfl
@[simp] theorem completeErase_history (p : BitVec 6) (s : State) : (completeErase p s).history = s.history := by
  unfold completeErase; split <;> try split
  all_goals rfl
@[simp] theorem completeErase_fault (p : BitVec 6) (s : State) : (completeErase p s).fault = s.fault := by
  unfold completeErase; split <;> try split
  all_goals rfl
@[simp] theorem completeErase_refused (p : BitVec 6) (s : State) : (completeErase p s).refused = s.refused := by
  unfold completeErase; split <;> try split
  all_goals rfl
@[simp] theorem completeErase_requests (p : BitVec 6) (s : State) : (completeErase p s).requests = s.requests := by
  unfold completeErase; split <;> try split
  all_goals rfl
@[simp] theorem completeErase_busProbe (p : BitVec 6) (s : State) : (completeErase p s).busProbe = s.busProbe := by
  unfold completeErase; split <;> try split
  all_goals rfl

/-! ### Completion of a program likewise -/

@[simp] theorem completeProgram_cfg (o : Nat) (lo hi : Word) (s : State) : (completeProgram o lo hi s).cfg = s.cfg := by
  unfold completeProgram; split <;> try split
  all_goals (try split)
  all_goals rfl
@[simp] theorem completeProgram_flags (o : Nat) (lo hi : Word) (s : State) : (completeProgram o lo hi s).flags = s.flags := by
  unfold completeProgram; split <;> try split
  all_goals (try split)
  all_goals rfl
@[simp] theorem completeProgram_pg (o : Nat) (lo hi : Word) (s : State) : (completeProgram o lo hi s).pg = s.pg := by
  unfold completeProgram; split <;> try split
  all_goals (try split)
  all_goals rfl
@[simp] theorem completeProgram_per (o : Nat) (lo hi : Word) (s : State) : (completeProgram o lo hi s).per = s.per := by
  unfold completeProgram; split <;> try split
  all_goals (try split)
  all_goals rfl
@[simp] theorem completeProgram_pnb (o : Nat) (lo hi : Word) (s : State) : (completeProgram o lo hi s).pnb = s.pnb := by
  unfold completeProgram; split <;> try split
  all_goals (try split)
  all_goals rfl
@[simp] theorem completeProgram_lock (o : Nat) (lo hi : Word) (s : State) : (completeProgram o lo hi s).lock = s.lock := by
  unfold completeProgram; split <;> try split
  all_goals (try split)
  all_goals rfl
@[simp] theorem completeProgram_keyStage (o : Nat) (lo hi : Word) (s : State) : (completeProgram o lo hi s).keyStage = s.keyStage := by
  unfold completeProgram; split <;> try split
  all_goals (try split)
  all_goals rfl
@[simp] theorem completeProgram_latch (o : Nat) (lo hi : Word) (s : State) : (completeProgram o lo hi s).latch = s.latch := by
  unfold completeProgram; split <;> try split
  all_goals (try split)
  all_goals rfl
@[simp] theorem completeProgram_op (o : Nat) (lo hi : Word) (s : State) : (completeProgram o lo hi s).op = s.op := by
  unfold completeProgram; split <;> try split
  all_goals (try split)
  all_goals rfl
@[simp] theorem completeProgram_aborted (o : Nat) (lo hi : Word) (s : State) : (completeProgram o lo hi s).aborted = s.aborted := by
  unfold completeProgram; split <;> try split
  all_goals (try split)
  all_goals rfl
@[simp] theorem completeProgram_chipSizeCache (o : Nat) (lo hi : Word) (s : State) : (completeProgram o lo hi s).chipSizeCache = s.chipSizeCache := by
  unfold completeProgram; split <;> try split
  all_goals (try split)
  all_goals rfl
@[simp] theorem completeProgram_seq (o : Nat) (lo hi : Word) (s : State) : (completeProgram o lo hi s).seq = s.seq := by
  unfold completeProgram; split <;> try split
  all_goals (try split)
  all_goals rfl
@[simp] theorem completeProgram_resp (o : Nat) (lo hi : Word) (s : State) : (completeProgram o lo hi s).resp = s.resp := by
  unfold completeProgram; split <;> try split
  all_goals (try split)
  all_goals rfl
@[simp] theorem completeProgram_history (o : Nat) (lo hi : Word) (s : State) : (completeProgram o lo hi s).history = s.history := by
  unfold completeProgram; split <;> try split
  all_goals (try split)
  all_goals rfl
@[simp] theorem completeProgram_fault (o : Nat) (lo hi : Word) (s : State) : (completeProgram o lo hi s).fault = s.fault := by
  unfold completeProgram; split <;> try split
  all_goals (try split)
  all_goals rfl
@[simp] theorem completeProgram_refused (o : Nat) (lo hi : Word) (s : State) : (completeProgram o lo hi s).refused = s.refused := by
  unfold completeProgram; split <;> try split
  all_goals (try split)
  all_goals rfl
@[simp] theorem completeProgram_requests (o : Nat) (lo hi : Word) (s : State) : (completeProgram o lo hi s).requests = s.requests := by
  unfold completeProgram; split <;> try split
  all_goals (try split)
  all_goals rfl
@[simp] theorem completeProgram_busProbe (o : Nat) (lo hi : Word) (s : State) : (completeProgram o lo hi s).busProbe = s.busProbe := by
  unfold completeProgram; split <;> try split
  all_goals (try split)
  all_goals rfl

/-! ### The completion step leaves the control fields, the latch and the sequencer (R161) -/

@[simp] theorem fsmComplete_cfg (s : State) : (fsmComplete s).cfg = s.cfg := by
  unfold fsmComplete; split <;> simp
@[simp] theorem fsmComplete_pg (s : State) : (fsmComplete s).pg = s.pg := by
  unfold fsmComplete; split <;> simp
@[simp] theorem fsmComplete_per (s : State) : (fsmComplete s).per = s.per := by
  unfold fsmComplete; split <;> simp
@[simp] theorem fsmComplete_pnb (s : State) : (fsmComplete s).pnb = s.pnb := by
  unfold fsmComplete; split <;> simp
@[simp] theorem fsmComplete_lock (s : State) : (fsmComplete s).lock = s.lock := by
  unfold fsmComplete; split <;> simp
@[simp] theorem fsmComplete_keyStage (s : State) : (fsmComplete s).keyStage = s.keyStage := by
  unfold fsmComplete; split <;> simp
@[simp] theorem fsmComplete_latch (s : State) : (fsmComplete s).latch = s.latch := by
  unfold fsmComplete; split <;> simp
@[simp] theorem fsmComplete_chipSizeCache (s : State) : (fsmComplete s).chipSizeCache = s.chipSizeCache := by
  unfold fsmComplete; split <;> simp
@[simp] theorem fsmComplete_seq (s : State) : (fsmComplete s).seq = s.seq := by
  unfold fsmComplete; split <;> simp
@[simp] theorem fsmComplete_resp (s : State) : (fsmComplete s).resp = s.resp := by
  unfold fsmComplete; split <;> simp
@[simp] theorem fsmComplete_fault (s : State) : (fsmComplete s).fault = s.fault := by
  unfold fsmComplete; split <;> simp
@[simp] theorem fsmComplete_refused (s : State) : (fsmComplete s).refused = s.refused := by
  unfold fsmComplete; split <;> simp
@[simp] theorem fsmComplete_requests (s : State) : (fsmComplete s).requests = s.requests := by
  unfold fsmComplete; split <;> simp
@[simp] theorem fsmComplete_busProbe (s : State) : (fsmComplete s).busProbe = s.busProbe := by
  unfold fsmComplete; split <;> simp

/-! ### So does the flash FSM's turn -/

@[simp] theorem fsmTurn_cfg (s : State) : (fsmTurn s).cfg = s.cfg := by
  unfold fsmTurn; split <;> try split
  all_goals simp
@[simp] theorem fsmTurn_pg (s : State) : (fsmTurn s).pg = s.pg := by
  unfold fsmTurn; split <;> try split
  all_goals simp
@[simp] theorem fsmTurn_per (s : State) : (fsmTurn s).per = s.per := by
  unfold fsmTurn; split <;> try split
  all_goals simp
@[simp] theorem fsmTurn_pnb (s : State) : (fsmTurn s).pnb = s.pnb := by
  unfold fsmTurn; split <;> try split
  all_goals simp
@[simp] theorem fsmTurn_lock (s : State) : (fsmTurn s).lock = s.lock := by
  unfold fsmTurn; split <;> try split
  all_goals simp
@[simp] theorem fsmTurn_keyStage (s : State) : (fsmTurn s).keyStage = s.keyStage := by
  unfold fsmTurn; split <;> try split
  all_goals simp
@[simp] theorem fsmTurn_latch (s : State) : (fsmTurn s).latch = s.latch := by
  unfold fsmTurn; split <;> try split
  all_goals simp
@[simp] theorem fsmTurn_chipSizeCache (s : State) : (fsmTurn s).chipSizeCache = s.chipSizeCache := by
  unfold fsmTurn; split <;> try split
  all_goals simp
@[simp] theorem fsmTurn_seq (s : State) : (fsmTurn s).seq = s.seq := by
  unfold fsmTurn; split <;> try split
  all_goals simp
@[simp] theorem fsmTurn_resp (s : State) : (fsmTurn s).resp = s.resp := by
  unfold fsmTurn; split <;> try split
  all_goals simp
@[simp] theorem fsmTurn_fault (s : State) : (fsmTurn s).fault = s.fault := by
  unfold fsmTurn; split <;> try split
  all_goals simp
@[simp] theorem fsmTurn_refused (s : State) : (fsmTurn s).refused = s.refused := by
  unfold fsmTurn; split <;> try split
  all_goals simp
@[simp] theorem fsmTurn_requests (s : State) : (fsmTurn s).requests = s.requests := by
  unfold fsmTurn; split <;> try split
  all_goals simp
@[simp] theorem fsmTurn_busProbe (s : State) : (fsmTurn s).busProbe = s.busProbe := by
  unfold fsmTurn; split <;> try split
  all_goals simp

/-! ### Starting an erase changes the operation alone -/

@[simp] theorem startErase_cfg (s : State) : (startErase s).cfg = s.cfg := by
  unfold startErase; split <;> try split
  all_goals simp
@[simp] theorem startErase_flags (s : State) : (startErase s).flags = s.flags := by
  unfold startErase; split <;> try split
  all_goals simp
@[simp] theorem startErase_pg (s : State) : (startErase s).pg = s.pg := by
  unfold startErase; split <;> try split
  all_goals simp
@[simp] theorem startErase_per (s : State) : (startErase s).per = s.per := by
  unfold startErase; split <;> try split
  all_goals simp
@[simp] theorem startErase_pnb (s : State) : (startErase s).pnb = s.pnb := by
  unfold startErase; split <;> try split
  all_goals simp
@[simp] theorem startErase_lock (s : State) : (startErase s).lock = s.lock := by
  unfold startErase; split <;> try split
  all_goals simp
@[simp] theorem startErase_keyStage (s : State) : (startErase s).keyStage = s.keyStage := by
  unfold startErase; split <;> try split
  all_goals simp
@[simp] theorem startErase_latch (s : State) : (startErase s).latch = s.latch := by
  unfold startErase; split <;> try split
  all_goals simp
@[simp] theorem startErase_array (s : State) : (startErase s).array = s.array := by
  unfold startErase; split <;> try split
  all_goals simp
@[simp] theorem startErase_chipSizeCache (s : State) : (startErase s).chipSizeCache = s.chipSizeCache := by
  unfold startErase; split <;> try split
  all_goals simp
@[simp] theorem startErase_seq (s : State) : (startErase s).seq = s.seq := by
  unfold startErase; split <;> try split
  all_goals simp
@[simp] theorem startErase_resp (s : State) : (startErase s).resp = s.resp := by
  unfold startErase; split <;> try split
  all_goals simp
@[simp] theorem startErase_history (s : State) : (startErase s).history = s.history := by
  unfold startErase; split <;> try split
  all_goals simp
@[simp] theorem startErase_fault (s : State) : (startErase s).fault = s.fault := by
  unfold startErase; split <;> try split
  all_goals simp
@[simp] theorem startErase_requests (s : State) : (startErase s).requests = s.requests := by
  unfold startErase; split <;> try split
  all_goals simp
@[simp] theorem startErase_busProbe (s : State) : (startErase s).busProbe = s.busProbe := by
  unfold startErase; split <;> try split
  all_goals simp

/-! ### START_CHECK changes the operation alone -/

@[simp] theorem startCheck_cfg (v : Word) (s : State) : (startCheck v s).cfg = s.cfg := by
  unfold startCheck; split <;> try split
  all_goals (try split)
  all_goals (try split)
  all_goals simp
@[simp] theorem startCheck_flags (v : Word) (s : State) : (startCheck v s).flags = s.flags := by
  unfold startCheck; split <;> try split
  all_goals (try split)
  all_goals (try split)
  all_goals simp
@[simp] theorem startCheck_pg (v : Word) (s : State) : (startCheck v s).pg = s.pg := by
  unfold startCheck; split <;> try split
  all_goals (try split)
  all_goals (try split)
  all_goals simp
@[simp] theorem startCheck_per (v : Word) (s : State) : (startCheck v s).per = s.per := by
  unfold startCheck; split <;> try split
  all_goals (try split)
  all_goals (try split)
  all_goals simp
@[simp] theorem startCheck_pnb (v : Word) (s : State) : (startCheck v s).pnb = s.pnb := by
  unfold startCheck; split <;> try split
  all_goals (try split)
  all_goals (try split)
  all_goals simp
@[simp] theorem startCheck_lock (v : Word) (s : State) : (startCheck v s).lock = s.lock := by
  unfold startCheck; split <;> try split
  all_goals (try split)
  all_goals (try split)
  all_goals simp
@[simp] theorem startCheck_keyStage (v : Word) (s : State) : (startCheck v s).keyStage = s.keyStage := by
  unfold startCheck; split <;> try split
  all_goals (try split)
  all_goals (try split)
  all_goals simp
@[simp] theorem startCheck_latch (v : Word) (s : State) : (startCheck v s).latch = s.latch := by
  unfold startCheck; split <;> try split
  all_goals (try split)
  all_goals (try split)
  all_goals simp
@[simp] theorem startCheck_array (v : Word) (s : State) : (startCheck v s).array = s.array := by
  unfold startCheck; split <;> try split
  all_goals (try split)
  all_goals (try split)
  all_goals simp
@[simp] theorem startCheck_chipSizeCache (v : Word) (s : State) : (startCheck v s).chipSizeCache = s.chipSizeCache := by
  unfold startCheck; split <;> try split
  all_goals (try split)
  all_goals (try split)
  all_goals simp
@[simp] theorem startCheck_seq (v : Word) (s : State) : (startCheck v s).seq = s.seq := by
  unfold startCheck; split <;> try split
  all_goals (try split)
  all_goals (try split)
  all_goals simp
@[simp] theorem startCheck_resp (v : Word) (s : State) : (startCheck v s).resp = s.resp := by
  unfold startCheck; split <;> try split
  all_goals (try split)
  all_goals (try split)
  all_goals simp
@[simp] theorem startCheck_history (v : Word) (s : State) : (startCheck v s).history = s.history := by
  unfold startCheck; split <;> try split
  all_goals (try split)
  all_goals (try split)
  all_goals simp
@[simp] theorem startCheck_fault (v : Word) (s : State) : (startCheck v s).fault = s.fault := by
  unfold startCheck; split <;> try split
  all_goals (try split)
  all_goals (try split)
  all_goals simp
@[simp] theorem startCheck_requests (v : Word) (s : State) : (startCheck v s).requests = s.requests := by
  unfold startCheck; split <;> try split
  all_goals (try split)
  all_goals (try split)
  all_goals simp
@[simp] theorem startCheck_busProbe (v : Word) (s : State) : (startCheck v s).busProbe = s.busProbe := by
  unfold startCheck; split <;> try split
  all_goals (try split)
  all_goals (try split)
  all_goals simp

/-! ### A CR write leaves the flags, the key stage, the array and the sequencer -/

@[simp] theorem crWriteEffect_cfg (v : Word) (s : State) : (crWriteEffect v s).cfg = s.cfg := by
  unfold crWriteEffect crWriteUnlocked; split <;> try split
  all_goals simp
@[simp] theorem crWriteEffect_flags (v : Word) (s : State) : (crWriteEffect v s).flags = s.flags := by
  unfold crWriteEffect crWriteUnlocked; split <;> try split
  all_goals simp
@[simp] theorem crWriteEffect_keyStage (v : Word) (s : State) : (crWriteEffect v s).keyStage = s.keyStage := by
  unfold crWriteEffect crWriteUnlocked; split <;> try split
  all_goals simp
@[simp] theorem crWriteEffect_array (v : Word) (s : State) : (crWriteEffect v s).array = s.array := by
  unfold crWriteEffect crWriteUnlocked; split <;> try split
  all_goals simp
@[simp] theorem crWriteEffect_chipSizeCache (v : Word) (s : State) : (crWriteEffect v s).chipSizeCache = s.chipSizeCache := by
  unfold crWriteEffect crWriteUnlocked; split <;> try split
  all_goals simp
@[simp] theorem crWriteEffect_seq (v : Word) (s : State) : (crWriteEffect v s).seq = s.seq := by
  unfold crWriteEffect crWriteUnlocked; split <;> try split
  all_goals simp
@[simp] theorem crWriteEffect_resp (v : Word) (s : State) : (crWriteEffect v s).resp = s.resp := by
  unfold crWriteEffect crWriteUnlocked; split <;> try split
  all_goals simp
@[simp] theorem crWriteEffect_history (v : Word) (s : State) : (crWriteEffect v s).history = s.history := by
  unfold crWriteEffect crWriteUnlocked; split <;> try split
  all_goals simp
@[simp] theorem crWriteEffect_fault (v : Word) (s : State) : (crWriteEffect v s).fault = s.fault := by
  unfold crWriteEffect crWriteUnlocked; split <;> try split
  all_goals simp
@[simp] theorem crWriteEffect_requests (v : Word) (s : State) : (crWriteEffect v s).requests = s.requests := by
  unfold crWriteEffect crWriteUnlocked; split <;> try split
  all_goals simp
@[simp] theorem crWriteEffect_busProbe (v : Word) (s : State) : (crWriteEffect v s).busProbe = s.busProbe := by
  unfold crWriteEffect crWriteUnlocked; split <;> try split
  all_goals simp

/-! ### Starting a program changes the operation and the latch -/

@[simp] theorem startProgram_cfg (o : Nat) (lo hi : Word) (s : State) : (startProgram o lo hi s).cfg = s.cfg := by
  unfold startProgram; split <;> simp [State.begin]
@[simp] theorem startProgram_flags (o : Nat) (lo hi : Word) (s : State) : (startProgram o lo hi s).flags = s.flags := by
  unfold startProgram; split <;> simp [State.begin]
@[simp] theorem startProgram_pg (o : Nat) (lo hi : Word) (s : State) : (startProgram o lo hi s).pg = s.pg := by
  unfold startProgram; split <;> simp [State.begin]
@[simp] theorem startProgram_per (o : Nat) (lo hi : Word) (s : State) : (startProgram o lo hi s).per = s.per := by
  unfold startProgram; split <;> simp [State.begin]
@[simp] theorem startProgram_pnb (o : Nat) (lo hi : Word) (s : State) : (startProgram o lo hi s).pnb = s.pnb := by
  unfold startProgram; split <;> simp [State.begin]
@[simp] theorem startProgram_lock (o : Nat) (lo hi : Word) (s : State) : (startProgram o lo hi s).lock = s.lock := by
  unfold startProgram; split <;> simp [State.begin]
@[simp] theorem startProgram_keyStage (o : Nat) (lo hi : Word) (s : State) : (startProgram o lo hi s).keyStage = s.keyStage := by
  unfold startProgram; split <;> simp [State.begin]
@[simp] theorem startProgram_array (o : Nat) (lo hi : Word) (s : State) : (startProgram o lo hi s).array = s.array := by
  unfold startProgram; split <;> simp [State.begin]
@[simp] theorem startProgram_chipSizeCache (o : Nat) (lo hi : Word) (s : State) : (startProgram o lo hi s).chipSizeCache = s.chipSizeCache := by
  unfold startProgram; split <;> simp [State.begin]
@[simp] theorem startProgram_seq (o : Nat) (lo hi : Word) (s : State) : (startProgram o lo hi s).seq = s.seq := by
  unfold startProgram; split <;> simp [State.begin]
@[simp] theorem startProgram_resp (o : Nat) (lo hi : Word) (s : State) : (startProgram o lo hi s).resp = s.resp := by
  unfold startProgram; split <;> simp [State.begin]
@[simp] theorem startProgram_history (o : Nat) (lo hi : Word) (s : State) : (startProgram o lo hi s).history = s.history := by
  unfold startProgram; split <;> simp [State.begin]
@[simp] theorem startProgram_fault (o : Nat) (lo hi : Word) (s : State) : (startProgram o lo hi s).fault = s.fault := by
  unfold startProgram; split <;> simp [State.begin]
@[simp] theorem startProgram_refused (o : Nat) (lo hi : Word) (s : State) : (startProgram o lo hi s).refused = s.refused := by
  unfold startProgram; split <;> simp [State.begin]
@[simp] theorem startProgram_requests (o : Nat) (lo hi : Word) (s : State) : (startProgram o lo hi s).requests = s.requests := by
  unfold startProgram; split <;> simp [State.begin]
@[simp] theorem startProgram_busProbe (o : Nat) (lo hi : Word) (s : State) : (startProgram o lo hi s).busProbe = s.busProbe := by
  unfold startProgram; split <;> simp [State.begin]

/-! ### The high word changes the operation and the latch -/

@[simp] theorem highWordWrite_cfg (o : Nat) (w : Word) (s : State) : (highWordWrite o w s).cfg = s.cfg := by
  unfold highWordWrite; split <;> try split
  all_goals simp
@[simp] theorem highWordWrite_flags (o : Nat) (w : Word) (s : State) : (highWordWrite o w s).flags = s.flags := by
  unfold highWordWrite; split <;> try split
  all_goals simp
@[simp] theorem highWordWrite_pg (o : Nat) (w : Word) (s : State) : (highWordWrite o w s).pg = s.pg := by
  unfold highWordWrite; split <;> try split
  all_goals simp
@[simp] theorem highWordWrite_per (o : Nat) (w : Word) (s : State) : (highWordWrite o w s).per = s.per := by
  unfold highWordWrite; split <;> try split
  all_goals simp
@[simp] theorem highWordWrite_pnb (o : Nat) (w : Word) (s : State) : (highWordWrite o w s).pnb = s.pnb := by
  unfold highWordWrite; split <;> try split
  all_goals simp
@[simp] theorem highWordWrite_lock (o : Nat) (w : Word) (s : State) : (highWordWrite o w s).lock = s.lock := by
  unfold highWordWrite; split <;> try split
  all_goals simp
@[simp] theorem highWordWrite_keyStage (o : Nat) (w : Word) (s : State) : (highWordWrite o w s).keyStage = s.keyStage := by
  unfold highWordWrite; split <;> try split
  all_goals simp
@[simp] theorem highWordWrite_array (o : Nat) (w : Word) (s : State) : (highWordWrite o w s).array = s.array := by
  unfold highWordWrite; split <;> try split
  all_goals simp
@[simp] theorem highWordWrite_chipSizeCache (o : Nat) (w : Word) (s : State) : (highWordWrite o w s).chipSizeCache = s.chipSizeCache := by
  unfold highWordWrite; split <;> try split
  all_goals simp
@[simp] theorem highWordWrite_seq (o : Nat) (w : Word) (s : State) : (highWordWrite o w s).seq = s.seq := by
  unfold highWordWrite; split <;> try split
  all_goals simp
@[simp] theorem highWordWrite_resp (o : Nat) (w : Word) (s : State) : (highWordWrite o w s).resp = s.resp := by
  unfold highWordWrite; split <;> try split
  all_goals simp
@[simp] theorem highWordWrite_history (o : Nat) (w : Word) (s : State) : (highWordWrite o w s).history = s.history := by
  unfold highWordWrite; split <;> try split
  all_goals simp
@[simp] theorem highWordWrite_fault (o : Nat) (w : Word) (s : State) : (highWordWrite o w s).fault = s.fault := by
  unfold highWordWrite; split <;> try split
  all_goals simp
@[simp] theorem highWordWrite_requests (o : Nat) (w : Word) (s : State) : (highWordWrite o w s).requests = s.requests := by
  unfold highWordWrite; split <;> try split
  all_goals simp
@[simp] theorem highWordWrite_busProbe (o : Nat) (w : Word) (s : State) : (highWordWrite o w s).busProbe = s.busProbe := by
  unfold highWordWrite; split <;> try split
  all_goals simp

/-! ### An unarmed write changes the flags or records a fault -/

@[simp] theorem unarmedWrite_cfg (o : Nat) (w : Word) (s : State) : (unarmedWrite o w s).cfg = s.cfg := by
  unfold unarmedWrite; split <;> rfl
@[simp] theorem unarmedWrite_pg (o : Nat) (w : Word) (s : State) : (unarmedWrite o w s).pg = s.pg := by
  unfold unarmedWrite; split <;> rfl
@[simp] theorem unarmedWrite_per (o : Nat) (w : Word) (s : State) : (unarmedWrite o w s).per = s.per := by
  unfold unarmedWrite; split <;> rfl
@[simp] theorem unarmedWrite_pnb (o : Nat) (w : Word) (s : State) : (unarmedWrite o w s).pnb = s.pnb := by
  unfold unarmedWrite; split <;> rfl
@[simp] theorem unarmedWrite_lock (o : Nat) (w : Word) (s : State) : (unarmedWrite o w s).lock = s.lock := by
  unfold unarmedWrite; split <;> rfl
@[simp] theorem unarmedWrite_keyStage (o : Nat) (w : Word) (s : State) : (unarmedWrite o w s).keyStage = s.keyStage := by
  unfold unarmedWrite; split <;> rfl
@[simp] theorem unarmedWrite_latch (o : Nat) (w : Word) (s : State) : (unarmedWrite o w s).latch = s.latch := by
  unfold unarmedWrite; split <;> rfl
@[simp] theorem unarmedWrite_op (o : Nat) (w : Word) (s : State) : (unarmedWrite o w s).op = s.op := by
  unfold unarmedWrite; split <;> rfl
@[simp] theorem unarmedWrite_aborted (o : Nat) (w : Word) (s : State) : (unarmedWrite o w s).aborted = s.aborted := by
  unfold unarmedWrite; split <;> rfl
@[simp] theorem unarmedWrite_array (o : Nat) (w : Word) (s : State) : (unarmedWrite o w s).array = s.array := by
  unfold unarmedWrite; split <;> rfl
@[simp] theorem unarmedWrite_chipSizeCache (o : Nat) (w : Word) (s : State) : (unarmedWrite o w s).chipSizeCache = s.chipSizeCache := by
  unfold unarmedWrite; split <;> rfl
@[simp] theorem unarmedWrite_seq (o : Nat) (w : Word) (s : State) : (unarmedWrite o w s).seq = s.seq := by
  unfold unarmedWrite; split <;> rfl
@[simp] theorem unarmedWrite_resp (o : Nat) (w : Word) (s : State) : (unarmedWrite o w s).resp = s.resp := by
  unfold unarmedWrite; split <;> rfl
@[simp] theorem unarmedWrite_history (o : Nat) (w : Word) (s : State) : (unarmedWrite o w s).history = s.history := by
  unfold unarmedWrite; split <;> rfl
@[simp] theorem unarmedWrite_refused (o : Nat) (w : Word) (s : State) : (unarmedWrite o w s).refused = s.refused := by
  unfold unarmedWrite; split <;> rfl
@[simp] theorem unarmedWrite_requests (o : Nat) (w : Word) (s : State) : (unarmedWrite o w s).requests = s.requests := by
  unfold unarmedWrite; split <;> rfl
@[simp] theorem unarmedWrite_busProbe (o : Nat) (w : Word) (s : State) : (unarmedWrite o w s).busProbe = s.busProbe := by
  unfold unarmedWrite; split <;> rfl

/-! ### An array write leaves the array and the control fields: only completion programs -/

@[simp] theorem arrayWriteEffect_cfg (o : Nat) (w : Word) (s : State) : (arrayWriteEffect o w s).cfg = s.cfg := by
  unfold arrayWriteEffect; split <;> try split
  all_goals (try split)
  all_goals (try split)
  all_goals simp
@[simp] theorem arrayWriteEffect_pg (o : Nat) (w : Word) (s : State) : (arrayWriteEffect o w s).pg = s.pg := by
  unfold arrayWriteEffect; split <;> try split
  all_goals (try split)
  all_goals (try split)
  all_goals simp
@[simp] theorem arrayWriteEffect_per (o : Nat) (w : Word) (s : State) : (arrayWriteEffect o w s).per = s.per := by
  unfold arrayWriteEffect; split <;> try split
  all_goals (try split)
  all_goals (try split)
  all_goals simp
@[simp] theorem arrayWriteEffect_pnb (o : Nat) (w : Word) (s : State) : (arrayWriteEffect o w s).pnb = s.pnb := by
  unfold arrayWriteEffect; split <;> try split
  all_goals (try split)
  all_goals (try split)
  all_goals simp
@[simp] theorem arrayWriteEffect_lock (o : Nat) (w : Word) (s : State) : (arrayWriteEffect o w s).lock = s.lock := by
  unfold arrayWriteEffect; split <;> try split
  all_goals (try split)
  all_goals (try split)
  all_goals simp
@[simp] theorem arrayWriteEffect_keyStage (o : Nat) (w : Word) (s : State) : (arrayWriteEffect o w s).keyStage = s.keyStage := by
  unfold arrayWriteEffect; split <;> try split
  all_goals (try split)
  all_goals (try split)
  all_goals simp
@[simp] theorem arrayWriteEffect_array (o : Nat) (w : Word) (s : State) : (arrayWriteEffect o w s).array = s.array := by
  unfold arrayWriteEffect; split <;> try split
  all_goals (try split)
  all_goals (try split)
  all_goals simp
@[simp] theorem arrayWriteEffect_chipSizeCache (o : Nat) (w : Word) (s : State) : (arrayWriteEffect o w s).chipSizeCache = s.chipSizeCache := by
  unfold arrayWriteEffect; split <;> try split
  all_goals (try split)
  all_goals (try split)
  all_goals simp
@[simp] theorem arrayWriteEffect_seq (o : Nat) (w : Word) (s : State) : (arrayWriteEffect o w s).seq = s.seq := by
  unfold arrayWriteEffect; split <;> try split
  all_goals (try split)
  all_goals (try split)
  all_goals simp
@[simp] theorem arrayWriteEffect_resp (o : Nat) (w : Word) (s : State) : (arrayWriteEffect o w s).resp = s.resp := by
  unfold arrayWriteEffect; split <;> try split
  all_goals (try split)
  all_goals (try split)
  all_goals simp
@[simp] theorem arrayWriteEffect_history (o : Nat) (w : Word) (s : State) : (arrayWriteEffect o w s).history = s.history := by
  unfold arrayWriteEffect; split <;> try split
  all_goals (try split)
  all_goals (try split)
  all_goals simp
@[simp] theorem arrayWriteEffect_requests (o : Nat) (w : Word) (s : State) : (arrayWriteEffect o w s).requests = s.requests := by
  unfold arrayWriteEffect; split <;> try split
  all_goals (try split)
  all_goals (try split)
  all_goals simp
@[simp] theorem arrayWriteEffect_busProbe (o : Nat) (w : Word) (s : State) : (arrayWriteEffect o w s).busProbe = s.busProbe := by
  unfold arrayWriteEffect; split <;> try split
  all_goals (try split)
  all_goals (try split)
  all_goals simp

/-! ### An array read changes no hardware state -/

@[simp] theorem busArrayRead_cfg (o : Nat) (s : State) : (busArrayRead o s).cfg = s.cfg := by
  unfold busArrayRead; split <;> simp
@[simp] theorem busArrayRead_flags (o : Nat) (s : State) : (busArrayRead o s).flags = s.flags := by
  unfold busArrayRead; split <;> simp
@[simp] theorem busArrayRead_pg (o : Nat) (s : State) : (busArrayRead o s).pg = s.pg := by
  unfold busArrayRead; split <;> simp
@[simp] theorem busArrayRead_per (o : Nat) (s : State) : (busArrayRead o s).per = s.per := by
  unfold busArrayRead; split <;> simp
@[simp] theorem busArrayRead_pnb (o : Nat) (s : State) : (busArrayRead o s).pnb = s.pnb := by
  unfold busArrayRead; split <;> simp
@[simp] theorem busArrayRead_lock (o : Nat) (s : State) : (busArrayRead o s).lock = s.lock := by
  unfold busArrayRead; split <;> simp
@[simp] theorem busArrayRead_keyStage (o : Nat) (s : State) : (busArrayRead o s).keyStage = s.keyStage := by
  unfold busArrayRead; split <;> simp
@[simp] theorem busArrayRead_latch (o : Nat) (s : State) : (busArrayRead o s).latch = s.latch := by
  unfold busArrayRead; split <;> simp
@[simp] theorem busArrayRead_op (o : Nat) (s : State) : (busArrayRead o s).op = s.op := by
  unfold busArrayRead; split <;> simp
@[simp] theorem busArrayRead_aborted (o : Nat) (s : State) : (busArrayRead o s).aborted = s.aborted := by
  unfold busArrayRead; split <;> simp
@[simp] theorem busArrayRead_array (o : Nat) (s : State) : (busArrayRead o s).array = s.array := by
  unfold busArrayRead; split <;> simp
@[simp] theorem busArrayRead_chipSizeCache (o : Nat) (s : State) : (busArrayRead o s).chipSizeCache = s.chipSizeCache := by
  unfold busArrayRead; split <;> simp
@[simp] theorem busArrayRead_seq (o : Nat) (s : State) : (busArrayRead o s).seq = s.seq := by
  unfold busArrayRead; split <;> simp
@[simp] theorem busArrayRead_resp (o : Nat) (s : State) : (busArrayRead o s).resp = s.resp := by
  unfold busArrayRead; split <;> simp
@[simp] theorem busArrayRead_fault (o : Nat) (s : State) : (busArrayRead o s).fault = s.fault := by
  unfold busArrayRead; split <;> simp
@[simp] theorem busArrayRead_requests (o : Nat) (s : State) : (busArrayRead o s).requests = s.requests := by
  unfold busArrayRead; split <;> simp
@[simp] theorem busArrayRead_busProbe (o : Nat) (s : State) : (busArrayRead o s).busProbe = s.busProbe := by
  unfold busArrayRead; split <;> simp

/-! ### The branches, once each -/

/-- What starting an erase can do (R138, R140, R162). -/
theorem startErase_cases (s : State) :
    startErase s = s.refuse .eraseOutsideArray ∧ s.cfg.arraySize < (s.pnb.toNat + 1) * s.cfg.page ∨
    (s.pnb.toNat + 1) * s.cfg.page ≤ s.cfg.arraySize ∧
      (startErase s = s.afterStartDraw.begin (.erase s.pnb) ∧ s.startDraw = true ∨
       startErase s = s.afterStartDraw ∧ s.startDraw = false) := by
  unfold startErase
  by_cases h : (s.pnb.toNat + 1) * s.cfg.page > s.cfg.arraySize
  · exact .inl ⟨if_pos h, h⟩
  · rw [if_neg h]
    refine .inr ⟨by omega, ?_⟩
    cases hd : s.startDraw <;> simp

/-- What START_CHECK can do (R138, R139). -/
theorem startCheck_cases (v : Word) (s : State) :
    startCheck v s = s ∧ (s.op ≠ .none ∨ v.getLsbD 31 = true ∨ s.per = false) ∨
    s.op = .none ∧ v.getLsbD 31 = false ∧ s.per = true ∧
      (startCheck v s = s.refuse .bothModes ∧ s.pg = true ∨ startCheck v s = startErase s ∧ s.pg = false) := by
  unfold startCheck
  by_cases h : s.op = .none
  · cases hv : v.getLsbD 31 <;> cases hp : s.per <;> cases hg : s.pg <;> simp [h]
  · simp [h]

/-- What an array write can do (R150 to R154). -/
theorem arrayWriteEffect_cases (o : Nat) (w : Word) (s : State) :
    arrayWriteEffect o w s = s.refuse .arrayRange ∧ (o % 4 ≠ 0 ∨ s.cfg.arraySize < o + 4) ∨
    (o % 4 = 0 ∧ o + 4 ≤ s.cfg.arraySize) ∧
      (arrayWriteEffect o w s = unarmedWrite o w s ∧ s.pg = false ∨
       s.pg = true ∧
        (arrayWriteEffect o w s = s.refuse .armedButBlocked ∧ (s.lock = true ∨ s.op ≠ .none) ∨
         (s.lock = false ∧ s.op = .none) ∧
          (arrayWriteEffect o w s = { s with latch := some ⟨o, w⟩ } ∧ o % 8 = 0 ∨
           arrayWriteEffect o w s = highWordWrite o w s ∧ o % 8 = 4))) := by
  unfold arrayWriteEffect
  by_cases h1 : o % 4 ≠ 0 ∨ o + 4 > s.cfg.arraySize
  · exact .inl ⟨if_pos h1, h1⟩
  · rw [if_neg h1]
    replace h1 : o % 4 = 0 ∧ o + 4 ≤ s.cfg.arraySize := by omega
    refine .inr ⟨h1, ?_⟩
    cases hp : s.pg with
    | false => simp
    | true =>
      refine .inr ⟨rfl, ?_⟩
      rw [if_neg (by simp)]
      by_cases h2 : s.lock = true ∨ s.op ≠ .none
      · exact .inl ⟨if_pos h2, h2⟩
      · rw [if_neg h2]
        replace h2 : s.lock = false ∧ s.op = .none := by simpa using h2
        refine .inr ⟨h2, ?_⟩
        by_cases h3 : o % 8 = 0
        · exact .inl ⟨if_pos h3, h3⟩
        · exact .inr ⟨if_neg h3, by omega⟩

/-- What a high word can do (R150, R151, R153). -/
theorem highWordWrite_cases (o : Nat) (w : Word) (s : State) :
    highWordWrite o w s = s.refuse .unpairedHighWord ∧ (∀ l, s.latch = some l → l.offset + 4 ≠ o) ∨
    ∃ l, s.latch = some l ∧ l.offset + 4 = o ∧ highWordWrite o w s = startProgram l.offset l.word w s := by
  unfold highWordWrite
  cases h : s.latch with
  | none => exact .inl ⟨rfl, by simp⟩
  | some l =>
    by_cases hl : l.offset + 4 = o
    · exact .inr ⟨l, rfl, hl, if_pos hl⟩
    · exact .inl ⟨if_neg hl, by simpa using hl⟩

end Sys2Proof.Machine
end

