-- ==== Sys2Proof/Laws/Memory.lean ====
section
/-! SUPPORT. Memory: a read after a write, and that every operation keeps the canonical form. -/

namespace Sys2Proof.Machine

/-- Writing a byte changes what that offset reads as, and nothing else. -/
theorem memRead_memWrite (base : Nat → Byte) (m : Memory) (a a' : Nat) (b : Byte) (lo : Nat)
    (h : Memory.wfFrom base lo m = true) :
    memRead base (memWrite base m a b) a' = if a' = a then b else memRead base m a' := by
  induction m generalizing lo with
  | nil =>
    unfold memWrite; split
    · rename_i hb; subst hb; simp only [memRead]; split <;> simp_all
    · simp [memRead]
  | cons cell rest ih =>
    obtain ⟨k, v⟩ := cell
    simp only [Memory.wfFrom, Bool.and_eq_true, decide_eq_true_eq] at h
    obtain ⟨⟨hlo, hv⟩, hrest⟩ := h
    have gone : ∀ lo' (m' : Memory), Memory.wfFrom base lo' m' = true → ∀ x, x < lo' → memRead base m' x = base x := by
      intro lo' m'
      induction m' generalizing lo' with
      | nil => intros; rfl
      | cons c t ih' =>
        obtain ⟨k', v'⟩ := c
        intro hw x hx
        simp only [Memory.wfFrom, Bool.and_eq_true, decide_eq_true_eq] at hw
        have hne : x ≠ k' := by omega
        simp only [memRead, hne, if_false]
        exact ih' (k' + 1) hw.2 x (by omega)
    unfold memWrite
    split
    · rename_i hak
      split
      · rename_i hb; subst hb
        by_cases hx : a' = a
        · subst hx
          have hne : a' ≠ k := by omega
          simp only [memRead, hne, if_false, if_true]
          exact gone (k + 1) rest hrest a' (by omega)
        · simp [hx]
      · simp [memRead]
    · split
      · rename_i hak; subst hak
        split
        · rename_i hb; subst hb
          by_cases hx : a' = a
          · subst hx; simp only [if_true]; exact gone (a' + 1) rest hrest a' (by omega)
          · simp [memRead, hx]
        · by_cases hx : a' = a <;> simp [memRead, hx]
      · by_cases hx : a' = k
        · subst hx
          have hne : a' ≠ a := by omega
          simp [memRead, hne]
        · simp only [memRead, hx, if_false]
          exact ih (k + 1) hrest

/-- Writing a byte keeps the canonical form from any bound at or below the offset. -/
theorem memWrite_wfFrom (base : Nat → Byte) (m : Memory) (a : Nat) (b : Byte) (lo : Nat)
    (h : Memory.wfFrom base lo m = true) (ha : lo ≤ a) : Memory.wfFrom base lo (memWrite base m a b) = true := by
  induction m generalizing lo with
  | nil =>
    unfold memWrite; split
    · rfl
    · simp_all [Memory.wfFrom]
  | cons cell rest ih =>
    obtain ⟨k, v⟩ := cell
    simp only [Memory.wfFrom, Bool.and_eq_true, decide_eq_true_eq] at h
    obtain ⟨⟨hlo, hv⟩, hrest⟩ := h
    have weaken : ∀ (m' : Memory) (l l' : Nat), l ≤ l' → Memory.wfFrom base l' m' = true → Memory.wfFrom base l m' = true := by
      intro m' l l' hl hw
      cases m' with
      | nil => rfl
      | cons c t =>
        obtain ⟨k', v'⟩ := c
        simp only [Memory.wfFrom, Bool.and_eq_true, decide_eq_true_eq] at hw ⊢
        exact ⟨⟨by omega, hw.1.2⟩, hw.2⟩
    unfold memWrite
    split
    · split
      · simp only [Memory.wfFrom, Bool.and_eq_true, decide_eq_true_eq]; exact ⟨⟨hlo, hv⟩, hrest⟩
      · simp only [Memory.wfFrom, Bool.and_eq_true, decide_eq_true_eq]
        exact ⟨⟨ha, by assumption⟩, ⟨by omega, hv⟩, hrest⟩
    · split
      · split
        · exact weaken rest lo (k + 1) (by omega) hrest
        · rename_i hak hb
          simp only [Memory.wfFrom, Bool.and_eq_true, decide_eq_true_eq]
          exact ⟨⟨ha, hb⟩, by rw [hak]; exact hrest⟩
      · simp only [Memory.wfFrom, Bool.and_eq_true, decide_eq_true_eq]
        exact ⟨⟨hlo, hv⟩, ih (k + 1) hrest (by omega)⟩

/-- Writing a byte keeps the canonical form. -/
theorem memWrite_wf (base : Nat → Byte) (m : Memory) (a : Nat) (b : Byte) (h : Memory.wf base m = true) :
    Memory.wf base (memWrite base m a b) = true := memWrite_wfFrom base m a b 0 h (Nat.zero_le a)

/-- Writing bytes keeps the canonical form. -/
theorem memWriteBytes_wf (base : Nat → Byte) (bytes : List Byte) (m : Memory) (a : Nat) (h : Memory.wf base m = true) :
    Memory.wf base (memWriteBytes base m a bytes) = true := by
  induction bytes generalizing m a with
  | nil => exact h
  | cons b rest ih => exact ih (memWrite base m a b) (a + 1) (memWrite_wf base m a b h)

/-- After writing bytes, an offset among them reads as its byte and every other offset as before. -/
theorem memRead_memWriteBytes (base : Nat → Byte) (bytes : List Byte) (m : Memory) (a x : Nat)
    (h : Memory.wf base m = true) :
    memRead base (memWriteBytes base m a bytes) x =
      if a ≤ x ∧ x < a + bytes.length then bytes.getD (x - a) 0 else memRead base m x := by
  induction bytes generalizing m a with
  | nil => simp only [memWriteBytes, List.length_nil, Nat.add_zero]; rw [if_neg (by omega)]
  | cons b rest ih =>
    simp only [memWriteBytes, List.length_cons]
    rw [ih (memWrite base m a b) (a + 1) (memWrite_wf base m a b h), memRead_memWrite base m a x b 0 h]
    by_cases hx : x = a
    · subst hx
      rw [if_neg (by omega), if_pos rfl, if_pos (by omega)]
      simp
    · by_cases hin : a + 1 ≤ x ∧ x < a + 1 + rest.length
      · rw [if_pos hin, if_pos (by omega)]
        obtain ⟨n, hn⟩ : ∃ n, x - a = n + 1 := ⟨x - a - 1, by omega⟩
        rw [hn, show x - (a + 1) = n by omega]
        simp
      · rw [if_neg hin, if_neg hx, if_neg (by omega)]

/-- Writing a byte below a bound keeps every listed offset below it. -/
theorem memWrite_below (base : Nat → Byte) (m : Memory) (a : Nat) (b : Byte) (n : Nat) (ha : a < n)
    (h : ∀ cell ∈ m, cell.1 < n) : ∀ cell ∈ memWrite base m a b, cell.1 < n := by
  induction m with
  | nil => intro c hc; unfold memWrite at hc; split at hc <;> simp_all
  | cons cell rest ih =>
    obtain ⟨k, v⟩ := cell
    have hk : k < n := h (k, v) (by simp)
    have hr : ∀ cell ∈ rest, cell.1 < n := fun c hc => h c (by simp [hc])
    intro c hc
    unfold memWrite at hc
    split at hc
    · split at hc
      · exact h c hc
      · rcases List.mem_cons.mp hc with rfl | hc
        · exact ha
        · exact h c hc
    · split at hc
      · split at hc
        · exact hr c hc
        · rcases List.mem_cons.mp hc with rfl | hc
          · exact ha
          · exact hr c hc
      · rcases List.mem_cons.mp hc with rfl | hc
        · exact hk
        · exact ih hr c hc

/-- Writing bytes below a bound keeps every listed offset below it. -/
theorem memWriteBytes_below (base : Nat → Byte) (bytes : List Byte) (m : Memory) (a n : Nat) (ha : a + bytes.length ≤ n)
    (h : ∀ cell ∈ m, cell.1 < n) : ∀ cell ∈ memWriteBytes base m a bytes, cell.1 < n := by
  induction bytes generalizing m a with
  | nil => exact h
  | cons b rest ih =>
    simp only [List.length_cons] at ha
    exact ih (memWrite base m a b) (a + 1) (by omega) (memWrite_below base m a b n (by omega) h)

/-- `memoryOk` in the terms of the memory lemmas. -/
theorem memoryOk_iff (s : State) :
    s.memoryOk = true ↔ Memory.wf s.cfg.initialByte s.array = true ∧ ∀ cell ∈ s.array, cell.1 < s.cfg.arraySize := by
  simp [State.memoryOk]

/-- Putting bytes inside the array keeps `memoryOk`. -/
theorem putBytes_memoryOk (s : State) (o : Nat) (bytes : List Byte) (h : s.memoryOk = true)
    (hin : o + bytes.length ≤ s.cfg.arraySize) : (s.putBytes o bytes).memoryOk = true := by
  rw [memoryOk_iff] at h ⊢
  exact ⟨memWriteBytes_wf _ bytes s.array o h.1, memWriteBytes_below _ bytes s.array o _ hin h.2⟩

/-- What every offset reads as after bytes are put. -/
theorem byteAt_putBytes (s : State) (o : Nat) (bytes : List Byte) (x : Nat) (h : s.memoryOk = true) :
    (s.putBytes o bytes).byteAt x = if o ≤ x ∧ x < o + bytes.length then bytes.getD (x - o) 0 else s.byteAt x :=
  memRead_memWriteBytes _ bytes s.array o x ((memoryOk_iff s).mp h).1

/-- n draws make n bytes. -/
@[simp] theorem drawBytes_length (s : State) (n k : Nat) : (s.drawBytes k n).length = n := by
  induction n generalizing k with
  | zero => rfl
  | succ n ih => simp [State.drawBytes, ih]

/-- The i-th drawn byte is the i-th draw. -/
theorem drawBytes_getD (s : State) (n k i : Nat) (h : i < n) :
    (s.drawBytes k n).getD i 0 = drawByte (s.drawAt (k + i)) := by
  induction n generalizing k i with
  | zero => omega
  | succ n ih =>
    cases i with
    | zero => simp [State.drawBytes]
    | succ i =>
      simp only [State.drawBytes, List.getD_cons_succ]
      rw [ih (k + 1) i (by omega)]
      congr 2; omega

/-- Drawing twice is drawing once. -/
theorem afterDraws_afterDraws (s : State) (m n : Nat) : (s.afterDraws m).afterDraws n = s.afterDraws (m + n) := by
  simp only [State.afterDraws, List.drop_drop, List.length_drop]
  congr 1
  omega

/-- The draws after some draws are the later ones. -/
@[simp] theorem drawAt_afterDraws (s : State) (n k : Nat) : (s.afterDraws n).drawAt k = s.drawAt (n + k) := by
  simp only [State.drawAt, State.afterDraws, List.getElem?_drop, List.length_drop]
  cases h : s.inputs[n + k]? with
  | some v => rfl
  | none =>
    have := List.getElem?_eq_none_iff.mp h
    simp only
    congr 1
    omega

end Sys2Proof.Machine
end

