-- ==== Sys2Proof/Laws/PerInstr.lean ====
section
/-! SUPPORT. Statements made once per instruction. -/

namespace Sys2Proof.Laws.TableRow

/-- The mask of the instruction's row in spec/opcode_table.json. -/
def mask : Instr → Word
  | .arrRd8 _ | .arrWr32 _ _ => 0xFC000000
  | .init | .unlock | .lock | .erase _ _ | .write _ _ | .read _ _ _ | .pageSize | .chipSize => 0xFFFFFFFF
  | .srRd | .srWr _ | .crRd | .crWr _ | .keyrWr _ | .keyrRd => 0xFFFFFFFF
  | .acrRd | .acrWr _ | .optrRd | .optrWr _ | .fuseRd16 => 0xFFFFFFFF

/-- The match of the instruction's row in spec/opcode_table.json. -/
def matchWord : Instr → Word
  | .init => 0x00000001
  | .unlock => 0x00000002
  | .lock => 0x00000003
  | .erase _ _ => 0x00000004
  | .write _ _ => 0x00000005
  | .read _ _ _ => 0x00000006
  | .pageSize => 0x00000007
  | .chipSize => 0x00000008
  | .srRd => 0x08000010
  | .srWr _ => 0x88000010
  | .crRd => 0x08000014
  | .crWr _ => 0x88000014
  | .keyrWr _ => 0x88000008
  | .keyrRd => 0x08000008
  | .acrRd => 0x08000000
  | .acrWr _ => 0x88000000
  | .optrRd => 0x08000020
  | .optrWr _ => 0x88000020
  | .arrRd8 _ => 0x10000000
  | .arrWr32 _ _ => 0x98000000
  | .fuseRd16 => 0x24000000

/-- The word the encoder writes matches the instruction's row of the opcode table. -/
def Statement (i : Instr) : Prop := (encode i).word &&& mask i = matchWord i

theorem init : Statement .init := rfl
theorem unlock : Statement .unlock := rfl
theorem lock : Statement .lock := rfl
theorem erase (addr pages : Word) : Statement (.erase addr pages) :=
  (by decide : (0x4#32 : Word) &&& 0xFFFFFFFF = 0x4)
theorem write (addr : Word) (data : Option (List Byte)) : Statement (.write addr data) :=
  (by decide : (0x5#32 : Word) &&& 0xFFFFFFFF = 0x5)
theorem read (addr length : Word) (buffer : Bool) : Statement (.read addr length buffer) :=
  (by decide : (0x6#32 : Word) &&& 0xFFFFFFFF = 0x6)
theorem pageSize : Statement .pageSize := rfl
theorem chipSize : Statement .chipSize := rfl
theorem srRd : Statement .srRd := rfl
theorem srWr (value : Word) : Statement (.srWr value) :=
  (by decide : registerDescriptor true srOffset &&& (0xFFFFFFFF : Word) = 0x88000010)
theorem crRd : Statement .crRd := rfl
theorem crWr (value : Word) : Statement (.crWr value) :=
  (by decide : registerDescriptor true crOffset &&& (0xFFFFFFFF : Word) = 0x88000014)
theorem keyrWr (value : Word) : Statement (.keyrWr value) :=
  (by decide : registerDescriptor true keyrOffset &&& (0xFFFFFFFF : Word) = 0x88000008)
theorem keyrRd : Statement .keyrRd := rfl
theorem acrRd : Statement .acrRd := rfl
theorem acrWr (value : Word) : Statement (.acrWr value) :=
  (by decide : registerDescriptor true acrOffset &&& (0xFFFFFFFF : Word) = 0x88000000)
theorem optrRd : Statement .optrRd := rfl
theorem optrWr (value : Word) : Statement (.optrWr value) :=
  (by decide : registerDescriptor true optrOffset &&& (0xFFFFFFFF : Word) = 0x88000020)
theorem arrRd8 (offset : BitVec 26) : Statement (.arrRd8 offset) := by
  unfold Statement encode Request.word mask matchWord descriptor spaceArray widthByte
  apply BitVec.eq_of_getLsbD_eq
  intro i hi
  interval_cases i <;> simp
theorem arrWr32 (offset : BitVec 26) (value : Word) : Statement (.arrWr32 offset value) := by
  unfold Statement encode Request.word mask matchWord descriptor spaceArray widthWord
  apply BitVec.eq_of_getLsbD_eq
  intro i hi
  interval_cases i <;> simp
theorem fuseRd16 : Statement .fuseRd16 := rfl

end Sys2Proof.Laws.TableRow
end

