-- ==== Sys2Proof/Tests/Slice0.lean ====
section
/-! SUPPORT. The model's own tests: the well-formedness smoke test, words written out from 30_encoding.md, vectors of
95_test_vectors.md (each named in its comment), and, for every obligation with hypotheses, a witness that meets them. -/

namespace Sys2Proof.Tests

open Sys2Proof Sys2Proof.Machine

/-! ### Helpers -/

/-- The next state, if the outcome is one. -/
def after : Host.Outcome State Fault Refusal → Option State
  | .next s => some s
  | .fault _ => none
  | .refused _ => none

/-- The response in the next state. -/
def respOf (o : Host.Outcome State Fault Refusal) : Option Response := (after o).bind (·.resp)

/-- One observation of the next state; the default if there is none. -/
def see {α : Type} (dflt : α) (f : State → α) (o : Host.Outcome State Fault Refusal) : α :=
  match after o with
  | some s => f s
  | none => dflt

/-- The descriptor and the value of each transaction of the next state's history. -/
def busOf (o : Host.Outcome State Fault Refusal) : List (Word × Option Word) :=
  see [] (fun s => s.history.filterMap fun e => match e with
    | .bus d _ v => some (d, v)
    | .completion _ => none) o

/-- The recorded refusal of an outcome, and whether the sequencer was left running. -/
def refusalOf : Host.Outcome State Fault Refusal → Option RefuseReason
  | .refused (.recorded why _) => some why
  | .refused (.notModelled _) => none
  | .refused .commandWhileRunning => none
  | .refused .dataTooLong => none
  | .next _ => none
  | .fault _ => none

/-- The fault of an outcome. -/
def faultOf : Host.Outcome State Fault Refusal → Option (Nat × Word)
  | .fault (.busFault o w _) => some (o, w)
  | .next _ => none
  | .refused _ => none

/-- Why a request is rejected. -/
def rejectOf (q : Request) : Option Reject :=
  match decode q with
  | .ok _ => none
  | .error e => some e

/-- An outcome that shows a next state is one. -/
theorem exists_of_after {o : Host.Outcome State Fault Refusal} (h : (after o).isSome = true) : ∃ t, o = .next t := by
  cases o with
  | next s => exact ⟨s, rfl⟩
  | fault f => simp [after] at h
  | refused r => simp [after] at h

/-- The common configuration of 95_test_vectors.md section 0, with keys, timeouts and policies of the test's own. -/
def common : Config where
  regBase := 0x40022000
  flashBase := 0x08000000
  fuseAddr := 0x1FFF75E0
  fuseValue := 0x0080
  key1 := 0x11111111
  key2 := 0x22222222
  eraseTimeout := 2
  progTimeout := 3
  pageSize := 2048
  erasedByte := 0xFF
  badKeyPolicy := .ignore
  unarmedWritePolicy := .ignore
  wrpPages := []
  initialArray := []

/-- Reset in the common configuration. -/
def start : State := { State.reset with cfg := common }

/-- Unlocked, idle and discovered: the start of the vectors of sections 2.5 and 2.6. -/
def open0 : State := { start with lock := false, chipSizeCache := 131072 }

/-- A command with a word and no operands. -/
def cmd (w : Word) : CommandRequest := .bare w

/-- A transaction with a descriptor and the value 0. -/
def bus (w : Word) : BusRequest := { word := w, value := 0 }

/-! ### Well-formedness and encoding -/

/-- R106: an instruction with 2^32 data bytes or more is not well formed, whatever they are, and the decoder refuses it. -/
theorem test_long_data_is_refused (d : List Byte) (h : d.length = 2 ^ 32) :
    Instr.wellFormed (.write 0 (some d)) = false ∧ decode (.command { cmd 0x5 with data := some d }) = .error .dataTooLong := by
  have hd : dataFits (some d) = false := by simp [dataFits, h]
  exact ⟨hd, by simp [decode, decodeCommand, hd, cmd, CommandRequest.bare]⟩

/-- R106: data of 2^32 - 1 bytes is well formed. -/
theorem test_longest_data (d : List Byte) (h : d.length = 2 ^ 32 - 1) : WellFormed (.write 0 (some d)) := by
  change Instr.wellFormed _ = true
  simp [Instr.wellFormed, dataFits, h]

/-- There is data of every length: a term that the check refuses exists. -/
theorem test_long_data_exists (n : Nat) : ∃ d : List Byte, d.length = n := ⟨List.replicate n 0, List.length_replicate⟩

/-- R105: the eight opcodes in bits 3 to 0. -/
theorem test_decode_commands :
    (List.range 10).map (decodeTableWord 32) =
      [none, some .init, some .unlock, some .lock, some (.erase 0 0), some (.write 0 none), some (.read 0 0 false),
       some .pageSize, some .chipSize, none] := by decide

/-- R109, R110: DIR (bit 31), SPACE 0 (bits 29 to 28), WIDTH 2 (bits 27 to 26) and OFFSET, written bit by bit. -/
theorem test_decode_registers :
    [0b00001000000000000000000000010000, 0b10001000000000000000000000010000, 0b00001000000000000000000000010100,
     0b10001000000000000000000000010100, 0b10001000000000000000000000001000, 0b00001000000000000000000000001000,
     0b00001000000000000000000000000000, 0b10001000000000000000000000000000, 0b00001000000000000000000000100000,
     0b10001000000000000000000000100000].map (decodeTableWord 32) =
      [some .srRd, some (.srWr 0), some .crRd, some (.crWr 0), some (.keyrWr 0), some .keyrRd, some .acrRd,
       some (.acrWr 0), some .optrRd, some (.optrWr 0)] := by decide

/-- R110 and vectors 2.1: SPACE 1 byte read at 0x1FFFF, SPACE 1 word write at 0x104, SPACE 2 half-word read. -/
theorem test_decode_array_and_fuse :
    [0b00010000000000011111111111111111, 0b10011000000000000000000100000100, 0b00100100000000000000000000000000].map
      (decodeTableWord 32) = [some (.arrRd8 0x1FFFF), some (.arrWr32 0x104 0), some .fuseRd16] := by decide

/-- Vectors 2.1 and R107, R131, R145: the words that spell nothing, each with its reason. -/
theorem test_decode_rejects :
    [0x0, 0xF, 0x11].map (fun w => rejectOf (.command (cmd w))) = List.replicate 3 (some .reservedCommand) ∧
    [0x00000010, 0x48000010, 0x08000011, 0x0800000C, 0x98000000, 0x18000000, 0x90000000, 0x24000002, 0xA4000000,
     0x38000000].map (fun w => rejectOf (.bus (bus w))) =
      [some .badTransaction, some .badTransaction, some .badTransaction, some .unmodelledRegister, none,
       some .badTransaction, some .badTransaction, some .badTransaction, some .badTransaction, some .badTransaction] := by
  decide

/-- Vectors 2.1: the words the encoder writes for an array write at 0x104 and an array read at 0x1FFFF. -/
theorem test_encode_array :
    encode (.arrWr32 0x104 7) = .bus { word := 0x98000104, value := 7 } ∧
    (encode (.arrRd8 0x1FFFF)).word = 0x1001FFFF := by decide

/-- Vectors 2.1: `erase_cr`. -/
theorem test_eraseCr :
    [eraseCr 0 0, eraseCr 0 1, eraseCr 0 2, eraseCr 0 5, eraseCr 0 63, eraseCr 0x10 3, eraseCr 0x1F8 0] =
      [0x00010002, 0x0001000A, 0x00010012, 0x0001002A, 0x000101FA, 0x0001001A, 0x00010002] := by decide

/-- V1.12: word assembly; and R111: the page floor of 0x1FFFF. -/
theorem test_wordAt :
    wordAt [0xEF, 0xBE, 0xAD, 0xDE, 0x0D, 0xF0, 0xAD, 0x0B] 0 = 0xDEADBEEF ∧
    wordAt [0xEF, 0xBE, 0xAD, 0xDE, 0x0D, 0xF0, 0xAD, 0x0B] 4 = 0x0BADF00D ∧ pageFloor common 0x1FFFF = 0x1F800 := by
  decide

/-- Vectors 2.3: the bounds predicate at its corners. -/
theorem test_inRange :
    [inRange 131072 0 131072, inRange 131072 131064 8, inRange 131072 131072 0, inRange 131072 131071 0,
     inRange 131072 131071 2, inRange 131072 8 0xFFFFFFFF, inRange 0 0 0] =
      [true, true, false, true, false, false, false] := by decide

/-! ### The register bus: vectors 2.2 -/

/-- V1.9: flags {0, 4, 9, 15} read as 0x8211, with BSY beside them while an operation is in flight. -/
theorem test_srRd :
    busOf (exec .srRd { start with flags := flagsOfWord 0x8211 }) = [(0x08000010, some 0x8211)] ∧
    busOf (exec .srRd { start with op := .erase 0 }) = [(0x08000010, some 0x00010000)] := by decide

/-- Vectors 2.2: flags {0, 1} written 1 leaves {1}; bit 16 written 1 clears nothing. -/
theorem test_srWr :
    see 0 State.srWord (exec (.srWr 0x1) { start with flags := 3 }) = 0x2 ∧
    see 0 State.srWord (exec (.srWr 0x00010000) { start with flags := 1 }) = 0x1 := by decide

/-- V1.10: every field at its maximum; reset reads 0x80000000. -/
theorem test_crRd :
    busOf (exec .crRd { start with pg := true, per := true, pnb := 63, op := .erase 63 }) = [(0x08000014, some 0x800101FB)] ∧
    busOf (exec .crRd start) = [(0x08000014, some 0x80000000)] := by decide

/-- Vectors 2.2: a start while unlocked; the same write while locked is ignored. -/
theorem test_crWr_start :
    see (0, 0) (fun s => (s.srWord, s.crWord)) (exec (.crWr 0x00010002) open0) = (0x00010000, 0x00010002) ∧
    see (0, 0) (fun s => (s.srWord, s.crWord)) (exec (.crWr 0x00010002) start) = (0x00000000, 0x80000000) := by decide

/-- Vectors 2.2: clearing PER of the erase in flight aborts it; a start with both modes is refused. -/
theorem test_crWr_abort :
    see (0, false) (fun s => (s.crWord, s.aborted))
      (exec (.crWr 0x00010008) { open0 with op := .erase 1, per := true, pnb := 1 }) = (0x00010008, true) ∧
    refusalOf (exec (.crWr 0x00010003) open0) = some .bothModes := by decide

/-- Vectors 2.2: K1 then K2 unlocks; from Expect2 a wrong key freezes under LockUntilReset. -/
theorem test_keyrWr :
    see (true, .frozen) (fun s => (s.lock, s.keyStage)) (exec (.keyrWr 0x22222222) { start with keyStage := .expect2 }) =
      (false, .expect1) ∧
    see (false, .expect1) (fun s => (s.lock, s.keyStage))
      (exec (.keyrWr 0x11111111) { start with cfg := { common with badKeyPolicy := .lockUntilReset }, keyStage := .expect2 }) =
      (true, .frozen) := by decide

/-- R144: KEYR_RD returns the draw. -/
theorem test_keyrRd : busOf (exec .keyrRd { start with inputs := [0xABCD] }) = [(0x08000008, some 0xABCD)] := by decide

/-- Vectors 2.2: ACR and OPTR are refused. -/
theorem test_unmodelled :
    [exec .acrRd start, exec (.acrWr 1) start, exec .optrRd start, exec (.optrWr 1) start].map refusalOf =
      List.replicate 4 (some .unmodelledRegister) := by decide

/-- Vectors 2.2: FUSE_RD16. -/
theorem test_fuseRd16 : busOf (exec .fuseRd16 start) = [(0x24000000, some 0x0080)] := by decide

/-- Vectors 2.2: a read of ARRAY[7] = 0x5A; a draw while Erase(3) is in flight. -/
theorem test_arrRd8 :
    busOf (exec (.arrRd8 7) { start with array := [(7, 0x5A)] }) = [(0x10000007, some 0x5A)] ∧
    busOf (exec (.arrRd8 0) { start with op := .erase 3, inputs := [0x1C3] }) = [(0x10000000, some 0xC3)] := by decide

/-- Vectors 2.2: the low word is latched, the high word starts the program. -/
theorem test_arrWr32_pair :
    see none (·.latch) (exec (.arrWr32 0x100 0x04030201) { open0 with pg := true }) = some ⟨0x100, 0x04030201⟩ ∧
    see .none (·.op) (exec (.arrWr32 0x104 0x08070605) { open0 with pg := true, latch := some ⟨0x100, 0x04030201⟩ }) =
      .program 0x100 0x04030201 0x08070605 := by decide

/-- Vectors 2.2: the stops of an array write. -/
theorem test_arrWr32_stops :
    [exec (.arrWr32 0x2 0) open0, exec (.arrWr32 0x20000 0) open0, exec (.arrWr32 0x104 0) { open0 with pg := true },
     exec (.arrWr32 0x100 0) { start with pg := true }].map refusalOf =
      [some .arrayRange, some .arrayRange, some .unpairedHighWord, some .armedButBlocked] ∧
    faultOf (exec (.arrWr32 0 7) { open0 with cfg := { common with unarmedWritePolicy := .busFault } }) = some (0, 7) := by
  decide

/-- Vectors 2.2: completion of Program(0x100, 0x04030201, 0x08070605) over 0xFF; over byte 0x103 = 0 the bytes are draws. -/
theorem test_completion_program :
    see [] (fun s => (List.range 8).map fun i => s.byteAt (0x100 + i))
      (step { open0 with op := .program 0x100 0x04030201 0x08070605, inputs := [1, 0] }) = [1, 2, 3, 4, 5, 6, 7, 8] ∧
    see [] (fun s => (List.range 8).map fun i => s.byteAt (0x100 + i))
      (step { open0 with
        op := .program 0x100 0x04030201 0x08070605
        array := [(0x103, 0)]
        inputs := [1, 20, 21, 22, 23, 24, 25, 26, 27, 0] }) = [20, 21, 22, 23, 24, 25, 26, 27] := by decide

/-- Vectors 2.2, with pages of 16 bytes: completion of Erase(2) clears the page's first and last byte and neither neighbour;
with page 2 protected nothing changes. -/
theorem test_completion_erase :
    see [] (fun s => [31, 32, 47, 48].map s.byteAt)
      (step { open0 with
        cfg := { common with pageSize := 16 }
        op := .erase 2
        array := [(31, 1), (32, 2), (47, 3), (48, 4)]
        inputs := [1, 0] }) = [1, 0xFF, 0xFF, 4] ∧
    see [] (fun s => [32, 47].map s.byteAt)
      (step { open0 with
        cfg := { common with pageSize := 16, wrpPages := [2] }
        op := .erase 2
        array := [(32, 2), (47, 3)]
        inputs := [1, 0] }) = [2, 3] := by decide

/-! ### The commands: vectors 2.4 to 2.7 -/

/-- Vectors 2.4: INIT from reset reads the fuse once and caches 131072; after that it reads nothing. -/
theorem test_init :
    (busOf (exec .init start), see 0 (·.chipSizeCache) (exec .init start)) = ([(0x24000000, some 0x0080)], 131072) ∧
    busOf (exec .init { start with chipSizeCache := 131072 }) = [] := by decide

/-- Vectors 2.4: UNLOCK from reset; from Frozen it answers OK and stays locked. -/
theorem test_unlock :
    busOf (exec .unlock start) = [(0x88000008, some 0x11111111), (0x88000008, some 0x22222222)] ∧
    see 1 State.crWord (exec .unlock start) = 0 ∧
    see 0 State.crWord (exec .unlock { start with keyStage := .frozen }) = 0x80000000 := by decide

/-- Vectors 2.4: LOCK from CR 0x10; and with Erase(1) in flight. -/
theorem test_lock :
    busOf (exec .lock { open0 with pnb := 2 }) = [(0x08000014, some 0x10), (0x88000014, some 0x80000010)] ∧
    see (0, .none) (fun s => (s.crWord, s.op)) (exec .lock { open0 with pnb := 1, op := .erase 1, inputs := [0, 0] }) =
      (0x80010008, .erase 1) := by decide

/-- Vectors 2.5: one page, prompt: the eight transactions and the response. -/
theorem test_erase_prompt :
    busOf (exec (.erase 0x17FF 1) { open0 with inputs := [1, 0x8001] }) =
      [(0x08000010, some 0), (0x88000010, some 0x83FF), (0x08000014, some 0), (0x88000014, some 0x00010012),
       (0x08000010, some 0x8001), (0x88000010, some 0x83FF), (0x08000014, some 0x12), (0x88000014, some 0x10)] ∧
    respOf (exec (.erase 0x17FF 1) { open0 with inputs := [1, 0x8001] }) = some ⟨.ok, 0, []⟩ := by decide

/-- Vectors 2.5: stuck, E = 2: the poll's two reads, the abort and TIMEOUT; and with fuse 0x0100, page 63 prompt, then refused
before page 64. -/
theorem test_erase_stops :
    busOf (exec (.erase 0 2) { open0 with inputs := List.replicate 8 0 }) =
      [(0x08000010, some 0), (0x88000010, some 0x83FF), (0x08000014, some 0), (0x88000014, some 0x00010002),
       (0x08000010, some 0x00010000), (0x08000010, some 0x00010000), (0x88000010, some 0x83FF),
       (0x08000014, some 0x00010002), (0x88000014, some 0x00010000)] ∧
    respOf (exec (.erase 0 2) { open0 with inputs := List.replicate 8 0 }) = some ⟨.timeout, 0, []⟩ ∧
    refusalOf (exec (.erase 0x1F800 2)
      { open0 with cfg := { common with fuseValue := 0x0100 }, chipSizeCache := 262144, inputs := [1, 0] }) =
      some .pageIndexWidth := by decide

/-- Vectors 2.6: two double-words at 0x10: the four words in order, and the response. -/
theorem test_write_prompt :
    (busOf (exec (.write 0x10 (some [0x11, 0x22, 0x33, 0x44, 0x55, 0x66, 0x77, 0x88, 0x99, 0xAA, 0xBB, 0xCC, 0xDD, 0xEE, 0xFF, 0]))
      { open0 with inputs := [1, 0, 1, 0] })).filter (fun t => decide (t.1.extractLsb' 26 6 = 0b100110)) =
      [(0x98000010, some 0x44332211), (0x98000014, some 0x88776655), (0x98000018, some 0xCCBBAA99),
       (0x9800001C, some 0x00FFEEDD)] ∧
    respOf (exec (.write 0x10 (some [0x11, 0x22, 0x33, 0x44, 0x55, 0x66, 0x77, 0x88, 0x99, 0xAA, 0xBB, 0xCC, 0xDD, 0xEE, 0xFF, 0]))
      { open0 with inputs := [1, 0, 1, 0] }) = some ⟨.ok, 16, []⟩ := by decide

/-- Vectors 2.6: stuck: the program of the first double-word, three poll reads, TIMEOUT; locked under BusFault. -/
theorem test_write_stops :
    busOf (exec (.write 0 (some [1, 2, 3, 4, 5, 6, 7, 8])) { open0 with inputs := List.replicate 9 0 }) =
      [(0x08000010, some 0), (0x88000010, some 0x83FF), (0x08000014, some 0), (0x88000014, some 1),
       (0x98000000, some 0x04030201), (0x98000004, some 0x08070605), (0x08000010, some 0x00010000),
       (0x08000010, some 0x00010000), (0x08000010, some 0x00010000), (0x88000010, some 0x83FF), (0x08000014, some 1),
       (0x88000014, some 0)] ∧
    faultOf (exec (.write 0 (some [1, 2, 3, 4, 5, 6, 7, 8]))
      { start with cfg := { common with unarmedWritePolicy := .busFault } }) = some (0, 0x04030201) := by decide

/-- Vectors 2.7: READ 0x100, 4; and while an operation is in flight. -/
theorem test_read :
    respOf (exec (.read 0x100 4 true) { start with array := [(0x100, 1), (0x101, 2), (0x102, 3), (0x103, 4)] }) =
      some ⟨.ok, 4, [1, 2, 3, 4]⟩ ∧
    respOf (exec (.read 0 2 true) { open0 with op := .erase 1, inputs := [7, 0, 9] }) = some ⟨.ok, 2, [7, 9]⟩ := by decide

/-- Vectors 2.7: PAGESIZE is 2048, and 4096 where that is configured. -/
theorem test_pageSize :
    respOf (exec .pageSize start) = some ⟨.ok, 2048, []⟩ ∧
    respOf (exec .pageSize { start with cfg := { common with pageSize := 4096 } }) = some ⟨.ok, 4096, []⟩ := by decide

/-- Vectors 2.7: CHIPSIZE at reset and after discovery. -/
theorem test_chipSize :
    respOf (exec .chipSize start) = some ⟨.ok, 0, []⟩ ∧ respOf (exec .chipSize open0) = some ⟨.ok, 131072, []⟩ := by decide

/-- V1.4: WRITE at 4 from reset answers INVALID_ARGUMENT, and discovery is the only transaction. -/
theorem test_write_unaligned :
    busOf (exec (.write 4 (some [1, 2, 3, 4, 5, 6, 7, 8])) start) = [(0x24000000, some 0x0080)] ∧
    respOf (exec (.write 4 (some [1, 2, 3, 4, 5, 6, 7, 8])) start) = some ⟨.invalidArgument, 0, []⟩ := by decide

/-- R130: the state with the record, and no step after it. -/
theorem test_step_after_refusal :
    refusalOf (step { start with requests := [cmd 0x9] }) = some .reservedCommand ∧
    refusalOf (step { start with refused := some .reservedCommand, requests := [cmd 0x1] }) = some .reservedCommand := by
  decide

/-- The table's words run as the first instruction after reset. -/
theorem test_withFetchWord :
    (after (step (State.reset.withFetchWord 32 0x00000001))).isSome = true ∧
    (after (step (State.reset.withFetchWord 32 0x88000014))).isSome = true := by decide

/-! ### Witnesses: states and operands that meet the hypotheses of the obligations -/

/-- A small machine: 1024 bytes in pages of 16, unlocked, with every completion step in time. -/
def small : Config := { common with fuseValue := 1, pageSize := 16 }

/-- The small machine at reset. -/
def s0 : State := { State.reset with cfg := small, inputs := [1, 0, 1, 0, 1, 0, 1, 0, 1, 0] }

/-- The small machine unlocked. -/
def s1 : State := { s0 with lock := false }

/-- The small machine with an erase in flight. -/
def s2 : State := { s1 with op := .erase 63, per := true, pnb := 63 }

/-- The small machine with a program in flight. -/
def s3 : State := { s1 with op := .program 1016 1 2, pg := true }

theorem witness_EncodedInstructionDecodes : WellFormed (.write 0 (some [1, 2, 3])) ∧ WellFormed (.arrRd8 0x3FFFFFF) := by decide

theorem witness_DecodedWordIsItsEncoding :
    decode (.command (cmd 0x8)) = .ok .chipSize ∧ decode (.bus (bus 0x13FFFFFF)) = .ok (.arrRd8 0x3FFFFFF) := ⟨rfl, rfl⟩

theorem witness_ReservedCommandWordStops :
    (Ready { s2 with requests := [cmd 0x0] } ∧ s2.busProbe = none ∧ (cmd 0x0).word = 0) ∧
    (Ready { s0 with requests := [cmd 0x9] } ∧ s0.busProbe = none ∧ 9 ≤ (cmd 0x9).word.toNat) ∧
    (Ready { s0 with requests := [cmd 0xFFFFFFFF] } ∧ 9 ≤ (cmd 0xFFFFFFFF).word.toNat) := by decide

theorem witness_UnlistedDescriptorStops :
    (Ready { s2 with busProbe := some (bus 0x0800000C) } ∧ matchesBusRow 0x0800000C = false ∧
      isRegisterWordAccess 0x0800000C = true) ∧
    (Ready { s0 with busProbe := some (bus 0x08000011) } ∧ matchesBusRow 0x08000011 = false ∧
      isRegisterWordAccess 0x08000011 = false) := by decide

theorem witness_StepRunsDecodedInstruction :
    (Ready { s2 with requests := [cmd 0x1, cmd 0x2] } ∧ s2.busProbe = none ∧ decode (.command (cmd 0x1)) = .ok .init) ∧
    (Ready { s0 with busProbe := some (bus 0x08000010) } ∧ decode (.bus (bus 0x08000010)) = .ok .srRd) :=
  ⟨⟨by decide, rfl, rfl⟩, by decide, rfl⟩

theorem witness_RecordedStopIsFinal :
    ({ s0 with fault := some ⟨0, 1⟩ } : State).live = false ∧
    ({ s0 with refused := some .bothModes } : State).live = false := by decide

theorem witness_RunningStepIsOneTransaction :
    (∃ r t, (s0.accept .init).live = true ∧ (s0.accept .init).seq = .running r ∧ step (s0.accept .init) = .next t ∧
      t.history.length = 1) ∧
    (∃ r t, (s2.accept .pageSize).live = true ∧ (s2.accept .pageSize).seq = .running r ∧ r.phase = .first ∧
      step (s2.accept .pageSize) = .next t) := by
  refine ⟨⟨_, _, by decide, rfl, rfl, by decide⟩, ?_⟩
  obtain ⟨t, ht⟩ := exists_of_after (o := step (s2.accept .pageSize)) (by decide)
  exact ⟨_, t, by decide, rfl, rfl, ht⟩

theorem witness_IdleStepWaits :
    (Ready s0 ∧ s0.busProbe = none ∧ s0.requests = [] ∧ s0.op = .none) ∧
    (Ready s2 ∧ s2.busProbe = none ∧ s2.requests = [] ∧ s2.op ≠ .none ∧ drawBit (s2.drawAt 0) = true) ∧
    (Ready { s2 with inputs := [0] } ∧ s2.op ≠ .none ∧ drawBit (({ s2 with inputs := [0] } : State).drawAt 0) = false) := by
  decide

theorem witness_StepKeepsInvariant : StateInv s3 ∧ ∃ t, step s3 = .next t :=
  ⟨by decide, exists_of_after (by decide)⟩

theorem witness_StepKeepsConfiguration :
    (∃ t, step s2 = .next t) ∧ (∃ t, step { s0 with requests := [cmd 0x7] } = .next t) ∧
    ∃ t, step { s0 with busProbe := some (bus 0x08000010) } = .next t :=
  ⟨exists_of_after (by decide), exists_of_after (by decide), exists_of_after (by decide)⟩

theorem witness_BusTransactionFrame :
    (commandOf (.crWr 0x00010002) = none ∧ ∃ t, exec (.crWr 0x00010002) s1 = .next t) ∧
    (commandOf (.arrWr32 0 7) = none ∧ ∃ t, exec (.arrWr32 0 7) s0 = .next t) :=
  ⟨⟨rfl, exists_of_after (by decide)⟩, rfl, exists_of_after (by decide)⟩

theorem witness_StatusReadReturnsFlagsAndBusy : s2.live = true := by decide

theorem witness_StatusWriteClearsFlags : s0.live = true ∧ (0x00010000 : Word) &&& 0x000083FF = 0 := by decide

theorem witness_ControlReadReturnsFields : s2.live = true := by decide

theorem witness_ControlWriteIgnoredWhileLocked : s0.live = true ∧ s0.lock = true := by decide

theorem witness_ControlWriteTakesFields :
    s1.live = true ∧ s1.lock = false ∧ (0x000001FB : Word).getLsbD 16 = false ∧
    s2.lock = false ∧ s2.op ≠ .none ∧ (0x80010002 : Word).getLsbD 31 = true ∧ (0x00010001 : Word).getLsbD 1 = false := by
  decide

theorem witness_ClearingModeBitAborts :
    (s2.live = true ∧ s2.lock = false ∧ s2.op.isErase = true ∧ s2.per = true ∧ (0x00010008 : Word).getLsbD 1 = false) ∧
    (s3.live = true ∧ s3.lock = false ∧ s3.op.isProgram = true ∧ s3.pg = true ∧ (0 : Word).getLsbD 0 = false) := by decide

theorem witness_StartBitStartsErase :
    s1.live = true ∧ s1.lock = false ∧ s1.op = .none ∧ s1.flags = 0 ∧ (0x000101FA : Word).getLsbD 16 = true ∧
    (0x000101FA : Word).getLsbD 31 = false ∧ (0x000101FA : Word).getLsbD 1 = true ∧ (0x000101FA : Word).getLsbD 0 = false ∧
    (((0x000101FA : Word).extractLsb' 3 6).toNat + 1) * s1.cfg.page ≤ s1.cfg.arraySize := by decide

theorem witness_StartWithoutMeaningStops :
    (s1.live = true ∧ s1.lock = false ∧ s1.op = .none ∧ (0x00010003 : Word).getLsbD 16 = true ∧
      (0x00010003 : Word).getLsbD 31 = false ∧ (0x00010003 : Word).getLsbD 1 = true ∧ (0x00010003 : Word).getLsbD 0 = true) ∧
    ((0x000101FA : Word).getLsbD 0 = false ∧ ({ small with pageSize := 24 } : Config).arraySize <
      (((0x000101FA : Word).extractLsb' 3 6).toNat + 1) * ({ small with pageSize := 24 } : Config).page) := by decide

theorem witness_StartWithFlagsIsADraw :
    (({ s1 with flags := 8 } : State).live = true ∧ ({ s1 with flags := 8 } : State).lock = false ∧
      ({ s1 with flags := 8 } : State).op = .none ∧ ({ s1 with flags := 8 } : State).flags ≠ 0 ∧
      (0x000101FA : Word).getLsbD 16 = true ∧ (0x000101FA : Word).getLsbD 31 = false ∧ (0x000101FA : Word).getLsbD 1 = true ∧
      (0x000101FA : Word).getLsbD 0 = false ∧
      (((0x000101FA : Word).extractLsb' 3 6).toNat + 1) * s1.cfg.page ≤ s1.cfg.arraySize) ∧
    (({ s1 with flags := 8, pg := true, latch := some ⟨1016, 5⟩ } : State).live = true ∧
      (1020 : BitVec 26).toNat = 1016 + 4 ∧ 1016 % 8 = 0 ∧ 1016 + 8 ≤ s1.cfg.arraySize) := by decide

theorem witness_KeyWriteRunsHandshake :
    s1.live = true ∧ s1.lock = false ∧ s0.live = true ∧ s0.lock = true ∧ s0.keyStage = .expect1 ∧
    ({ s0 with keyStage := .expect2 } : State).lock = true ∧ ({ s0 with keyStage := .frozen } : State).lock = true ∧
    (0 : Word) ≠ s0.cfg.key1 ∧ (0 : Word) ≠ s0.cfg.key2 := by decide

theorem witness_KeyReadReturnsADraw : s0.live = true := by decide

theorem witness_UnmodelledRegistersStop : s0.live = true := by decide

theorem witness_FuseReadReturnsCapacity : s0.live = true := by decide

theorem witness_ArrayReadReturnsByte :
    s0.live = true ∧ (1023 : BitVec 26).toNat < s0.cfg.arraySize ∧ s0.op = .none := by decide

theorem witness_ArrayReadWhileBusyIsADraw :
    s2.live = true ∧ (1023 : BitVec 26).toNat < s2.cfg.arraySize ∧ s2.op ≠ .none := by decide

theorem witness_ArrayAccessWithoutMeaningStops :
    (s0.live = true ∧ s0.cfg.arraySize ≤ (1024 : BitVec 26).toNat) ∧
    ((1022 : BitVec 26).toNat % 4 ≠ 0 ∧ s0.cfg.arraySize < (1024 : BitVec 26).toNat + 4) ∧
    ((1020 : BitVec 26).toNat % 4 = 0 ∧ (1020 : BitVec 26).toNat + 4 ≤ s3.cfg.arraySize ∧ s3.pg = true ∧ s3.op ≠ .none ∧
      s3.live = true) ∧
    (({ s1 with pg := true } : State).live = true ∧ (1020 : BitVec 26).toNat % 8 = 4 ∧
      (1020 : BitVec 26).toNat + 4 ≤ s1.cfg.arraySize ∧ s1.lock = false ∧ s1.op = .none ∧
      ∀ l, ({ s1 with pg := true } : State).latch = some l → l.offset + 4 ≠ (1020 : BitVec 26).toNat) :=
  ⟨by decide, by decide, by decide, by decide, by decide, by decide, by decide, by decide, fun l h => by cases h⟩

theorem witness_LowWordIsLatched :
    ({ s1 with pg := true } : State).live = true ∧ s1.lock = false ∧ s1.op = .none ∧ (1016 : BitVec 26).toNat % 8 = 0 ∧
    (1016 : BitVec 26).toNat + 4 ≤ s1.cfg.arraySize := by decide

theorem witness_HighWordStartsProgram :
    ({ s1 with pg := true, latch := some ⟨1016, 5⟩ } : State).live = true ∧ s1.lock = false ∧ s1.op = .none ∧ s1.flags = 0 ∧
    (1020 : BitVec 26).toNat = 1016 + 4 ∧ 1016 % 8 = 0 ∧ 1016 + 8 ≤ s1.cfg.arraySize := by decide

theorem witness_UnarmedWriteFollowsPolicy :
    (s0.live = true ∧ s0.pg = false ∧ (1020 : BitVec 26).toNat % 4 = 0 ∧ (1020 : BitVec 26).toNat + 4 ≤ s0.cfg.arraySize ∧
      s0.cfg.unarmedWritePolicy = .ignore) ∧
    ({ s0 with cfg := { small with unarmedWritePolicy := .busFault } } : State).cfg.unarmedWritePolicy = .busFault := by decide

theorem witness_EraseCompletionErasesPage :
    StateInv s2 ∧ s2.live = true ∧ s2.op = .erase 63 ∧ s2.aborted = false ∧
    (63 : BitVec 6).toNat ∉ s2.cfg.wrpPages ∧ drawBit (s2.drawAt 0) = true := by decide

theorem witness_ProgramCompletionStoresWords :
    StateInv s3 ∧ s3.live = true ∧ s3.op = .program 1016 1 2 ∧ s3.aborted = false ∧
    1016 / s3.cfg.page ∉ s3.cfg.wrpPages ∧ (∀ i < 8, s3.byteAt (1016 + i) = s3.cfg.erasedByte) ∧
    drawBit (s3.drawAt 0) = true := by decide

theorem witness_DisturbedCompletionDrawsTarget :
    (StateInv { s2 with aborted := true } ∧ ({ s2 with aborted := true } : State).live = true ∧
      drawBit (s2.drawAt 0) = true ∧ s2.op = .erase 63 ∧ (63 : BitVec 6).toNat ∉ s2.cfg.wrpPages) ∧
    (StateInv { s3 with aborted := true } ∧ s3.op = .program 1016 1 2 ∧ 1016 / s3.cfg.page ∉ s3.cfg.wrpPages) ∧
    (StateInv { s3 with array := [(1023, 0)] } ∧ ({ s3 with array := [(1023, 0)] } : State).live = true ∧
      ∃ i < 8, ({ s3 with array := [(1023, 0)] } : State).byteAt (1016 + i) ≠ s3.cfg.erasedByte) := by decide

theorem witness_ProtectedPageIsUnchanged :
    (({ s2 with cfg := { small with wrpPages := [63] } } : State).live = true ∧ drawBit (s2.drawAt 0) = true ∧
      s2.op = .erase 63 ∧ (63 : BitVec 6).toNat ∈ ({ small with wrpPages := [63] } : Config).wrpPages) ∧
    (({ s3 with cfg := { small with wrpPages := [63] } } : State).live = true ∧ s3.op = .program 1016 1 2 ∧
      1016 / small.page ∈ ({ small with wrpPages := [63] } : Config).wrpPages) := by decide

theorem witness_InitCachesCapacity : Ready s0 ∧ Ready { s2 with chipSizeCache := 1024 } := by decide

theorem witness_UnlockRunsKeySequence :
    (Ready s0 ∧ s0.lock = true ∧ s0.keyStage = .expect1) ∧ (Ready s1 ∧ s1.lock = false) ∧
    Ready { s0 with keyStage := .frozen } ∧ (Ready { s0 with keyStage := .expect2 } ∧ s0.cfg.key1 ≠ s0.cfg.key2) := by decide

theorem witness_LockSetsLockBit : Ready s0 ∧ Ready s1 ∧ s1.op = .none ∧ Ready s2 := by decide

theorem witness_AccessorsAnswer : Ready s0 := by decide

/-- The small machine with an erase in flight, the capacity cached, and no completion step for five draws. -/
def s6 : State := { s2 with chipSizeCache := 1024, inputs := [0, 0, 0, 0, 0, 1] }

theorem witness_ReadCopiesArray :
    (Quiet s0 ∧ s0.cacheOk = true ∧ (1020 : Word).toNat < s0.capacity ∧ (1020 : Word).toNat + (4 : Word).toNat ≤ s0.capacity) ∧
    (Ready s6 ∧ s6.op ≠ .none ∧ s6.cacheOk = true ∧ (3 : Word) ≠ 0 ∧ (1021 : Word).toNat + (3 : Word).toNat ≤ s6.capacity ∧
      s6.discoverDraws = 0 ∧
      ∀ i < 3, i + s6.discoverDraws ≠ 0 → drawBit (s6.drawAt (2 * i + s6.discoverDraws - 1)) = false) ∧
    (Ready { s2 with inputs := [0, 7, 0] } ∧ ({ s2 with inputs := [0, 7, 0] } : State).cacheOk = true ∧
      ({ s2 with inputs := [0, 7, 0] } : State).discoverDraws = 1 ∧
      ∀ i < 2, drawBit (({ s2 with inputs := [0, 7, 0] } : State).drawAt (2 * i + 1 - 1)) = false) ∧
    (s6.op ≠ .none ∧ 3 < (4 : Word).toNat ∧ 3 + s6.discoverDraws ≠ 0 ∧
      (1020 : Word).toNat + (4 : Word).toNat ≤ s6.capacity ∧
      (∀ i < 3, i + s6.discoverDraws ≠ 0 → drawBit (s6.drawAt (2 * i + s6.discoverDraws - 1)) = false) ∧
      drawBit (s6.drawAt (2 * 3 + s6.discoverDraws - 1)) = true) ∧
    (Ready s2 ∧ s2.cacheOk = true ∧ s2.discoverDraws = 1 ∧ drawBit (s2.drawAt (2 * 0 + s2.discoverDraws - 1)) = true) := by
  decide

theorem witness_ArgumentErrorsChangeNothing :
    Ready s0 ∧
    ¬((1023 : Word).toNat / s0.cfg.page * s0.cfg.page < s0.capacity ∧
      (1023 : Word).toNat / s0.cfg.page * s0.cfg.page + (2 : Word).toNat * s0.cfg.page ≤ s0.capacity) ∧
    (s0.cfg.flashBase.toNat + (1 : Word).toNat) % 8 ≠ 0 ∧
    ¬((1024 : Word).toNat < s0.capacity ∧ (1024 : Word).toNat + ([] : List Byte).length ≤ s0.capacity) ∧
    ¬((1023 : Word).toNat < s0.capacity ∧ (1023 : Word).toNat + (2 : Word).toNat ≤ s0.capacity) := by decide

theorem witness_BusyBlockRefusesEraseAndWrite :
    (Ready s6 ∧ s6.op ≠ .none ∧ s6.chipSizeCache ≠ 0 ∧ s6.cacheOk = true ∧
      (1008 : Word).toNat / s6.cfg.page * s6.cfg.page < s6.capacity ∧
      (1008 : Word).toNat / s6.cfg.page * s6.cfg.page + (1 : Word).toNat * s6.cfg.page ≤ s6.capacity ∧
      (s6.cfg.flashBase.toNat + (1016 : Word).toNat) % 8 = 0 ∧ (1016 : Word).toNat + ([1, 2] : List Byte).length ≤ s6.capacity) ∧
    (Ready { s2 with inputs := [0] } ∧ s2.op ≠ .none ∧ s2.chipSizeCache = 0 ∧ s2.cacheOk = true ∧
      drawBit (({ s2 with inputs := [0] } : State).drawAt 0) = false ∧
      (1008 : Word).toNat / s2.cfg.page * s2.cfg.page + (1 : Word).toNat * s2.cfg.page ≤ s2.capacity ∧
      (1016 : Word).toNat + ([1, 2] : List Byte).length ≤ s2.capacity) := by
  decide

theorem witness_EmptyEraseAndWriteAnswerOk :
    Quiet s0 ∧ (1023 : Word).toNat / s0.cfg.page * s0.cfg.page < s0.capacity ∧
    (s0.cfg.flashBase.toNat + (1016 : Word).toNat) % 8 = 0 ∧ (1016 : Word).toNat < s0.capacity := by decide

/-- The first unit completes at once, the second waits one boundary. -/
def waits01 (i : Nat) : Nat := i

/-- The small machine unlocked, with draws that meet `waits01` for two units without pad bytes. -/
def s7 : State := { s1 with inputs := [1, 0, 0, 1, 0] }

theorem witness_EraseErasesRequestedPages :
    StateInv s7 ∧ Quiet s7 ∧ s7.lock = false ∧ s7.pg = false ∧ (2 : Word) ≠ 0 ∧
    (992 : Word).toNat / s7.cfg.page * s7.cfg.page + (2 : Word).toNat * s7.cfg.page ≤ s7.capacity ∧
    (992 : Word).toNat / s7.cfg.page + (2 : Word).toNat ≤ 64 ∧
    (∀ i < (2 : Word).toNat, waits01 i < s7.cfg.eraseTimeout.toNat ∧
      s7.completesAfter (unitDraw waits01 i) (waits01 i) = true) := by decide

/-- The small machine unlocked, with draws that meet `waits01` for 11 bytes: five pad bytes before the second program. -/
def s8 : State := { s1 with inputs := [1, 0, 91, 92, 93, 94, 95, 0, 1, 0] }

/-- The small machine unlocked, with a byte that is not erased in each of the two double-words, and draws that meet `waits01` for
11 bytes. -/
def s10 : State :=
  { s1 with array := [(1010, 0), (1020, 0)], inputs := [1, 11, 12, 13, 14, 15, 16, 17, 18, 0, 91, 92, 93, 94, 95, 0, 1] }

theorem witness_WriteProgramsData :
    (StateInv s8 ∧ Quiet s8 ∧ s8.lock = false ∧ List.replicate 11 (0x5A : Byte) ≠ [] ∧
      (1008 : Word).toNat % 8 = 0 ∧ (1008 : Word).toNat + (List.replicate 11 (0x5A : Byte)).length ≤ s8.capacity ∧
      (∀ i < ceil8 11, s8.byteAt ((1008 : Word).toNat + i) = s8.cfg.erasedByte) ∧
      (∀ i < doubleWords 11, waits01 i < s8.cfg.progTimeout.toNat ∧
        s8.completesAfter (unitDraw waits01 i + padCount (List.replicate 11 (0x5A : Byte)) i) (waits01 i) = true)) ∧
    (StateInv s10 ∧ Quiet s10 ∧ s10.lock = false ∧ (1008 : Word).toNat + (List.replicate 11 (0x5A : Byte)).length ≤ s10.capacity ∧
      s10.dirtyAt 1008 = true ∧ s10.dirtyAt 1016 = true ∧
      (∀ i < doubleWords 11, waits01 i < s10.cfg.progTimeout.toNat ∧
        s10.completesAfter (s10.writeDraw (1008 : Word).toNat waits01 i + padCount (List.replicate 11 (0x5A : Byte)) i)
          (waits01 i) = true)) := by decide

theorem witness_WriteThenReadReturnsData :
    StateInv s8 ∧ Quiet s8 ∧ s8.lock = false ∧ s8.cfg.wrpPages = [] ∧ List.replicate 11 (0x5A : Byte) ≠ [] ∧
    (1008 : Word).toNat % 8 = 0 ∧ (1008 : Word).toNat + (List.replicate 11 (0x5A : Byte)).length ≤ s8.capacity ∧
    (∀ i < ceil8 11, s8.byteAt ((1008 : Word).toNat + i) = s8.cfg.erasedByte) ∧
    (∀ i < doubleWords 11, waits01 i < s8.cfg.progTimeout.toNat ∧
      s8.completesAfter (unitDraw waits01 i + padCount (List.replicate 11 (0x5A : Byte)) i) (waits01 i) = true) := by decide

/-- The small machine unlocked: the first unit completes at once, then nothing completes. -/
def s4 : State := { s1 with inputs := [1, 0, 0, 0, 0, 0, 0, 0, 0, 0, 0, 0, 0] }

/-- The small machine unlocked, with no completion step. -/
def s9 : State := { s1 with inputs := List.replicate 8 0 }

/-- Budgets of 0. -/
def impatient : Config := { small with eraseTimeout := 0, progTimeout := 0 }

theorem witness_EraseTimesOut :
    (StateInv s4 ∧ Quiet s4 ∧ s4.lock = false ∧ s4.pg = false ∧ 1 < (2 : Word).toNat ∧
      (992 : Word).toNat / s4.cfg.page * s4.cfg.page + (2 : Word).toNat * s4.cfg.page ≤ s4.capacity ∧
      (992 : Word).toNat / s4.cfg.page + 1 ≤ 63 ∧
      (∀ i < 1, waits01 i < s4.cfg.eraseTimeout.toNat ∧ s4.completesAfter (unitDraw waits01 i) (waits01 i) = true) ∧
      s4.waitsFor (unitDraw waits01 1) (s4.cfg.eraseTimeout.toNat + 3) = true) ∧
    (StateInv s9 ∧ Quiet s9 ∧ 0 < (2 : Word).toNat ∧ (1008 : Word).toNat / s9.cfg.page + 0 ≤ 63 ∧
      s9.waitsFor (unitDraw waits01 0) (s9.cfg.eraseTimeout.toNat + 3) = true) ∧
    (StateInv { s1 with cfg := impatient } ∧ Quiet { s1 with cfg := impatient } ∧ s1.pg = false ∧
      impatient.eraseTimeout = 0 ∧ (1 : Word) ≠ 0 ∧ (1008 : Word).toNat / impatient.page ≤ 63 ∧
      (1008 : Word).toNat / impatient.page * impatient.page + (1 : Word).toNat * impatient.page ≤
        ({ s1 with cfg := impatient } : State).capacity) ∧
    (StateInv { s0 with cfg := impatient } ∧ Quiet { s0 with cfg := impatient } ∧ s0.lock = true) := by decide

theorem witness_WriteTimesOut :
    (StateInv s4 ∧ Quiet s4 ∧ s4.lock = false ∧ 1 < doubleWords (List.replicate 11 (0x5A : Byte)).length ∧
      (1008 : Word).toNat % 8 = 0 ∧ (1008 : Word).toNat + (List.replicate 11 (0x5A : Byte)).length ≤ s4.capacity ∧
      (∀ i < 8 * 1, s4.byteAt ((1008 : Word).toNat + i) = s4.cfg.erasedByte) ∧
      (∀ i < 1, waits01 i < s4.cfg.progTimeout.toNat ∧ s4.completesAfter (unitDraw waits01 i) (waits01 i) = true) ∧
      s4.waitsFor (unitDraw waits01 1 + padCount (List.replicate 11 (0x5A : Byte)) 1) (s4.cfg.progTimeout.toNat + 3) = true) ∧
    (StateInv s9 ∧ Quiet s9 ∧ 0 < doubleWords (List.replicate 8 (0x5A : Byte)).length ∧
      s9.waitsFor (unitDraw waits01 0 + padCount (List.replicate 8 (0x5A : Byte)) 0) (s9.cfg.progTimeout.toNat + 3) = true) ∧
    (StateInv { s1 with cfg := impatient } ∧ Quiet { s1 with cfg := impatient } ∧ s1.lock = false ∧
      impatient.progTimeout = 0 ∧ ([1, 2, 3] : List Byte) ≠ [] ∧ (1016 : Word).toNat % 8 = 0 ∧
      (1016 : Word).toNat + ([1, 2, 3] : List Byte).length ≤ ({ s1 with cfg := impatient } : State).capacity) ∧
    (StateInv { s0 with cfg := impatient } ∧ Quiet { s0 with cfg := impatient } ∧ s0.lock = true ∧ s0.pg = false ∧
      impatient.unarmedWritePolicy = .ignore) := by decide

theorem witness_LockedCommandsChangeNothing :
    commandOf (.erase 0 1) = some (.erase 0 1) ∧ Quiet s0 ∧ s0.lock = true ∧ ∃ t, exec (.erase 0 1) s0 = .next t :=
  ⟨rfl, by decide, by decide, exists_of_after (by decide)⟩

theorem witness_LockedEraseAndWriteAnswerOk :
    (StateInv s0 ∧ Quiet s0 ∧ s0.lock = true ∧ s0.cfg.eraseTimeout ≠ 0 ∧
      (1008 : Word).toNat / s0.cfg.page * s0.cfg.page + (1 : Word).toNat * s0.cfg.page ≤ s0.capacity ∧
      (1008 : Word).toNat / s0.cfg.page + (1 : Word).toNat ≤ 64) ∧
    (s0.pg = false ∧ s0.cfg.progTimeout ≠ 0 ∧ (1016 : Word).toNat % 8 = 0 ∧
      (1016 : Word).toNat + ([1, 2, 3] : List Byte).length ≤ s0.capacity ∧ s0.cfg.unarmedWritePolicy = .ignore) ∧
    (StateInv { s0 with cfg := { small with unarmedWritePolicy := .busFault } } ∧
      Quiet { s0 with cfg := { small with unarmedWritePolicy := .busFault } }) := by decide

theorem witness_ModeBitsAreClearAfterwards :
    Ready s1 ∧ s1.lock = false ∧ s1.pg = false ∧ s1.per = false ∧ (∃ t, exec (.erase 0 1) s1 = .next t) ∧
    ∃ t, exec (.write 0 (some [1, 2, 3, 4, 5, 6, 7, 8])) s1 = .next t :=
  ⟨by decide, by decide, by decide, by decide, exists_of_after (by decide), exists_of_after (by decide)⟩

theorem witness_InvalidArgumentWritesNothing :
    commandOf (.write 1 (some [1])) = some (.write 1 (some [1])) ∧ Ready s1 ∧
    ∃ t, exec (.write 1 (some [1])) s1 = .next t ∧ t.resp = some ⟨.invalidArgument, 0, []⟩ := by
  refine ⟨rfl, by decide, ?_⟩
  have h : respOf (exec (.write 1 (some [1])) s1) = some ⟨.invalidArgument, 0, []⟩ := by decide
  obtain ⟨t, ht⟩ := exists_of_after (o := exec (.write 1 (some [1])) s1) (by decide)
  rw [ht] at h
  exact ⟨t, ht, h⟩

theorem witness_DiscoveryTriggerSet :
    (commandOf .lock = some .lock ∧ Ready s1 ∧ ∃ t, exec .lock s1 = .next t) ∧
    (commandOf .init = some .init ∧ ∃ t, exec .init s1 = .next t) :=
  ⟨⟨rfl, by decide, exists_of_after (by decide)⟩, rfl, exists_of_after (by decide)⟩

theorem witness_EveryCommandEnds : commandOf (.read 0 4 true) = some (.read 0 4 true) ∧ Ready s2 := by decide

theorem witness_CommandIsItsTransactions :
    commandOf (.erase 0 1) = some (.erase 0 1) ∧ Ready s2 ∧ s2.op ≠ .none ∧ Quiet s1 := by decide

/-- Pages of 8 bytes: page 64 lies inside the 1024 bytes. -/
def s5 : State := { s1 with cfg := { small with pageSize := 8 } }

theorem witness_WidePageIndexStops :
    (StateInv s5 ∧ Quiet s5 ∧ (1 : Word) ≠ 0 ∧ 64 < (512 : Word).toNat / s5.cfg.page + (1 : Word).toNat ∧
      (512 : Word).toNat / s5.cfg.page * s5.cfg.page + (1 : Word).toNat * s5.cfg.page ≤ s5.capacity ∧
      64 ≤ (512 : Word).toNat / s5.cfg.page) ∧
    (64 < (504 : Word).toNat / s5.cfg.page + (2 : Word).toNat ∧
      (504 : Word).toNat / s5.cfg.page * s5.cfg.page + (2 : Word).toNat * s5.cfg.page ≤ s5.capacity ∧
      (504 : Word).toNat / s5.cfg.page ≤ 63 ∧ s5.lock = false ∧ s5.pg = false ∧
      ∀ i < 64 - (504 : Word).toNat / s5.cfg.page, waits01 i < s5.cfg.eraseTimeout.toNat ∧
        s5.completesAfter (unitDraw waits01 i) (waits01 i) = true) ∧
    (StateInv { s5 with lock := true } ∧ Quiet { s5 with lock := true } ∧ s5.cfg.eraseTimeout ≠ 0) := by decide

theorem witness_EraseInProgramModeStops :
    StateInv { s1 with pg := true } ∧ Quiet { s1 with pg := true } ∧ s1.lock = false ∧ (1 : Word) ≠ 0 ∧
    (1008 : Word).toNat / s1.cfg.page ≤ 63 ∧
    (1008 : Word).toNat / s1.cfg.page * s1.cfg.page + (1 : Word).toNat * s1.cfg.page ≤ ({ s1 with pg := true } : State).capacity := by
  decide

end Sys2Proof.Tests
end

section
/-! SUPPORT. What a whole step can do, said once: the commands, the sequencer by the operations it is made of, and the step by
who has the move. -/

namespace Sys2Proof.Machine

/-! ### The meaning of a command -/

/-- A command means its run by the sequencer (R8). -/
theorem exec_of_command {i : Instr} {c : Command} (s : State) (h : commandOf i = some c) : exec i s = runCommand c s := by
  cases i <;> cases h <;> rfl

/-! ### How a sequencer step ends -/

/-- After the transactions of a sequencer step of run `r` led to `s`, the step leaves `s` with a response, or with the next
transaction named. -/
inductive EndsOrGoesOn (r : Run) (s : State) : State → Prop where
  | ends (status : Status) (value : Word) (data : List Byte) : EndsOrGoesOn r s (s.respond status value data)
  | goesOn (phase : Phase) (regs : Regs) : EndsOrGoesOn r s (s.goto r phase regs)

theorem firstUnit_endsOrGoesOn (r : Run) (s : State) : EndsOrGoesOn r s (firstUnit r s) := by
  unfold firstUnit
  (repeat' split) <;> constructor

theorem nextUnit_endsOrGoesOn (r : Run) (s : State) : EndsOrGoesOn r s (nextUnit r s) := by
  unfold nextUnit
  (repeat' split) <;> constructor

theorem enterPoll_endsOrGoesOn (r : Run) (s : State) : EndsOrGoesOn r s (enterPoll r s) := by
  unfold enterPoll
  split <;> constructor

theorem afterModeWrite_endsOrGoesOn (r : Run) (s : State) : EndsOrGoesOn r s (afterModeWrite r s) := by
  unfold afterModeWrite
  split
  · exact .goesOn _ _
  all_goals exact enterPoll_endsOrGoesOn r s

/-! ### What the operations keep, every instruction keeps -/

/-- Every bus transaction keeps `P`. -/
structure KeptByTransactions (P : State → Prop) : Prop where
  srRead : ∀ s, P s → P (busSrRead s)
  srWrite : ∀ v s, P s → P (busSrWrite v s)
  crRead : ∀ s, P s → P (busCrRead s)
  crWrite : ∀ v s, P s → P (busCrWrite v s)
  keyRead : ∀ s, P s → P (busKeyRead s)
  keyWrite : ∀ v s, P s → P (busKeyWrite v s)
  unmodelledRead : ∀ o s, P s → P (busUnmodelledRead o s)
  unmodelledWrite : ∀ o v s, P s → P (busUnmodelledWrite o v s)
  fuseRead : ∀ s, P s → P (busFuseRead s)
  arrayRead : ∀ o s, P s → P (busArrayRead o s)
  arrayWrite : ∀ o w s, P s → P (busArrayWrite o w s)

/-- The bus transactions keep `P`, and so does what the sequencer does besides them: it moves on, draws pad bytes, caches the
capacity, responds, and refuses a page index. -/
structure KeptBySequencer (P : State → Prop) : Prop extends KeptByTransactions P where
  moveOn : ∀ q s, P s → P { s with seq := q }
  draws : ∀ n s, P s → P (s.afterDraws n)
  cache : ∀ s, P s → P { s with chipSizeCache := chipSizeOf s.cfg.fuseValue }
  response : ∀ x s, P s → P { s with resp := x }
  refusal : ∀ s, P s → P (s.refuse .pageIndexWidth)

section
variable {P : State → Prop}

theorem KeptBySequencer.goto (hP : KeptBySequencer P) (r : Run) (phase : Phase) (regs : Regs) {s : State} (h : P s) :
    P (s.goto r phase regs) := hP.moveOn _ _ h

theorem KeptBySequencer.respond (hP : KeptBySequencer P) (status : Status) (value : Word) (data : List Byte) {s : State}
    (h : P s) : P (s.respond status value data) := hP.moveOn .idle _ (hP.response (some ⟨status, value, data⟩) s h)

theorem KeptBySequencer.endsOrGoesOn (hP : KeptBySequencer P) {r : Run} {s t : State} (ht : EndsOrGoesOn r s t) (h : P s) :
    P t := by
  cases ht with
  | ends status value data => exact hP.respond status value data h
  | goesOn phase regs => exact hP.goto r phase regs h

theorem andThen_keeps {k : State → State} (hk : ∀ t, P t → P (k t)) {s : State} (h : P s) : P (s.andThen k) := by
  unfold State.andThen
  split
  · exact hk s h
  · exact h

theorem stepFuse_keeps (hP : KeptBySequencer P) (r : Run) {s : State} (h : P s) : P (stepFuse r s) := by
  have hd : P (discoverCapacity s) := hP.cache _ (hP.fuseRead s h)
  unfold stepFuse
  split
  · exact hP.respond _ _ _ hd
  · exact hP.goto _ _ _ hd
  · exact hP.goto _ _ _ hd

theorem stepBusy_keeps (hP : KeptBySequencer P) (r : Run) {s : State} (h : P s) : P (stepBusy r s) := by
  unfold stepBusy
  split
  · exact hP.respond _ _ _ (hP.srRead s h)
  · exact hP.endsOrGoesOn (firstUnit_endsOrGoesOn _ _) (hP.srRead s h)

theorem stepByteRead_keeps (hP : KeptBySequencer P) (r : Run) {s : State} (h : P s) : P (stepByteRead r s) := by
  refine andThen_keeps (fun t ht => ?_) (hP.arrayRead _ s h)
  split
  · exact hP.goto _ _ _ ht
  · exact hP.respond _ _ _ ht

theorem stepDiscover_keeps (hP : KeptBySequencer P) (r : Run) {s : State} (h : P s) : P (stepDiscover r s) := by
  by_cases hc : s.chipSizeCache = 0
  · rw [stepDiscover_of_unknown hc]
    exact stepFuse_keeps hP r h
  · obtain ⟨x, -, hx⟩ | ⟨-, hx⟩ | ⟨-, hx⟩ := stepDiscover_cases (r := r) hc <;> rw [hx]
    · exact hP.respond _ _ _ h
    · exact stepBusy_keeps hP r h
    · exact stepByteRead_keeps hP r h

theorem stepFirst_keeps (hP : KeptBySequencer P) (r : Run) {s : State} (h : P s) : P (stepFirst r s) := by
  unfold stepFirst
  cases r.cmd with
  | init => exact stepDiscover_keeps hP r h
  | erase a b => exact stepDiscover_keeps hP r h
  | write a data => exact stepDiscover_keeps hP r h
  | read a b buffer => exact stepDiscover_keeps hP r h
  | unlock => exact hP.goto _ _ _ (hP.keyWrite _ s h)
  | lock => exact hP.goto _ _ _ (hP.crRead s h)
  | pageSize => exact hP.respond _ _ _ h
  | chipSize => exact hP.respond _ _ _ h

theorem stepClearBefore_keeps (hP : KeptBySequencer P) (unit : Nat) (r : Run) {s : State} (h : P s) :
    P (stepClearBefore unit r s) := by
  unfold stepClearBefore
  split
  · split
    · exact hP.refusal _ (hP.moveOn _ s h)
    · exact hP.goto _ _ _ (hP.srWrite _ s h)
  · exact hP.goto _ _ _ (hP.srWrite _ _ (hP.draws _ s h))
  all_goals exact hP.goto _ _ _ (hP.srWrite _ s h)

theorem stepPoll_keeps (hP : KeptBySequencer P) (k : Nat) (r : Run) {s : State} (h : P s) : P (stepPoll k r s) := by
  obtain ⟨g, hg, -⟩ := stepPoll_phase (k := k) (r := r) (s := s)
  rw [hg]
  exact hP.goto _ _ _ (hP.srRead s h)

/-- A sequencer step is made of the operations of `KeptBySequencer` alone. -/
theorem sequencerStep_keeps (hP : KeptBySequencer P) (r : Run) {s : State} (h : P s) : P (sequencerStep r s) := by
  unfold sequencerStep
  cases r.phase with
  | first => exact stepFirst_keeps hP r h
  | busy => exact stepBusy_keeps hP r h
  | clearBefore unit => exact stepClearBefore_keeps hP unit r h
  | modeRead => exact hP.goto _ _ _ (hP.crRead s h)
  | modeWrite => exact andThen_keeps (fun t => hP.endsOrGoesOn (afterModeWrite_endsOrGoesOn r t)) (hP.crWrite _ s h)
  | lowWord => exact andThen_keeps (fun _ ht => hP.goto _ _ _ ht) (hP.arrayWrite _ _ s h)
  | highWord => exact andThen_keeps (fun t => hP.endsOrGoesOn (enterPoll_endsOrGoesOn r t)) (hP.arrayWrite _ _ s h)
  | poll k => exact stepPoll_keeps hP k r h
  | clearAfter => exact hP.goto _ _ _ (hP.srWrite _ s h)
  | cleanupRead => exact hP.goto _ _ _ (hP.crRead s h)
  | cleanupWrite => exact andThen_keeps (fun t => hP.endsOrGoesOn (nextUnit_endsOrGoesOn r t)) (hP.crWrite _ s h)
  | secondKey => exact hP.respond _ _ _ (hP.keyWrite _ s h)
  | lockWrite => exact andThen_keeps (fun _ ht => hP.respond _ _ _ ht) (hP.crWrite _ s h)
  | byteRead => exact stepByteRead_keeps hP r h

theorem sequencerTurn_keeps (hP : KeptBySequencer P) (s : State) (h : P s) : P (sequencerTurn s) := by
  cases hq : s.seq with
  | idle => rwa [sequencerTurn_of_idle hq]
  | running r =>
    rw [sequencerTurn_of_running hq]
    exact sequencerStep_keeps hP r h

theorem transaction_keeps {f : State → State} (hf : ∀ s, P s → P (f s)) {s t : State} (h : P s)
    (ht : transaction f s = .next t) : P t := by
  obtain ⟨-, -, rfl⟩ := transaction_eq_next_iff.mp ht
  exact hf s h

/-- What the transactions, the sequencer and the flash FSM's turn keep, every instruction that goes on keeps. -/
theorem exec_keeps (hP : KeptBySequencer P) (hfsm : ∀ s, P s → P (fsmTurn s)) {i : Instr} {s t : State} (h : P s)
    (ht : exec i s = .next t) : P t := by
  cases hc : commandOf i with
  | some c =>
    rw [exec_of_command s hc] at ht
    obtain ⟨-, -, -, rfl⟩ := runCommand_eq_next_iff.mp ht
    exact runSequencer_keeps (sequencerTurn_keeps hP) hfsm _ _ (hP.moveOn _ s h)
  | none =>
    cases i with
    | init | unlock | lock | erase _ _ | write _ _ | read _ _ _ | pageSize | chipSize => cases hc
    | srRd => exact transaction_keeps hP.srRead h ht
    | srWr v => exact transaction_keeps (hP.srWrite v) h ht
    | crRd => exact transaction_keeps hP.crRead h ht
    | crWr v => exact transaction_keeps (hP.crWrite v) h ht
    | keyrWr v => exact transaction_keeps (hP.keyWrite v) h ht
    | keyrRd => exact transaction_keeps hP.keyRead h ht
    | acrRd => exact transaction_keeps (hP.unmodelledRead acrOffset) h ht
    | acrWr v => exact transaction_keeps (hP.unmodelledWrite acrOffset v) h ht
    | optrRd => exact transaction_keeps (hP.unmodelledRead optrOffset) h ht
    | optrWr v => exact transaction_keeps (hP.unmodelledWrite optrOffset v) h ht
    | arrRd8 o => exact transaction_keeps (hP.arrayRead o.toNat) h ht
    | arrWr32 o w => exact transaction_keeps (hP.arrayWrite o.toNat w) h ht
    | fuseRd16 => exact transaction_keeps hP.fuseRead h ht

end

/-! ### Who has the move -/

/-- The step of a live machine is the flash FSM's turn and then one move. -/
theorem step_of_live {s : State} (h : s.live = true) : step s = act (fsmTurn s) := if_pos h

/-- A stopped machine stays as it is (R60, R61). -/
theorem step_of_not_live {s : State} (h : s.live = false) : step s = outcome s := if_neg (by simp [h])

/-- A rejected word never goes on. -/
theorem rejectRequest_ne_next (e : Reject) (s t : State) : rejectRequest e s ≠ .next t := by
  cases e <;> simp [rejectRequest, outcome_eq_next_iff]

/-- How a machine can go on: the sequencer steps, the idle sequencer performs the test port's transaction, or the host waits or
issues its next command. -/
inductive Moves (s : State) : State → Prop where
  | sequencer (r : Run) (hseq : s.seq = .running r) (hlive : (sequencerStep r s).live = true) : Moves s (sequencerStep r s)
  | probe (q : BusRequest) (i : Instr) (t : State) (hseq : s.seq = .idle) (hport : s.busProbe = some q)
      (hdecode : decode (.bus q) = .ok i) (hexec : exec i s.popProbe = .next t) : Moves s t
  | wait (hseq : s.seq = .idle) (hport : s.busProbe = none) (hlist : s.requests = []) : Moves s s
  | command (q : CommandRequest) (i : Instr) (t : State) (hseq : s.seq = .idle) (hport : s.busProbe = none)
      (hfront : s.requests.head? = some q) (hdecode : decode (.command q) = .ok i) (hexec : exec i s.popRequest = .next t) :
      Moves s t

theorem moves_of_actProbe {s t : State} {q : BusRequest} (hseq : s.seq = .idle) (hport : s.busProbe = some q)
    (ht : actProbe q s = .next t) : Moves s t := by
  unfold actProbe at ht
  split at ht
  case h_1 i hi => exact .probe q i t hseq hport hi ht
  case h_2 e _ => exact absurd ht (rejectRequest_ne_next e _ t)

theorem moves_of_actHost {s t : State} (hseq : s.seq = .idle) (hport : s.busProbe = none) (ht : actHost s = .next t) :
    Moves s t := by
  unfold actHost at ht
  split at ht
  case h_1 hlist =>
    obtain ⟨-, rfl⟩ := outcome_eq_next_iff.mp ht
    exact .wait hseq hport hlist
  case h_2 q rest hlist =>
    split at ht
    case h_1 i hi => exact .command q i t hseq hport (by rw [hlist]; rfl) hi ht
    case h_2 e _ => exact absurd ht (rejectRequest_ne_next e _ t)

/-- A step that goes on is the flash FSM's turn of a live machine and one of the moves. -/
theorem moves_of_step {s t : State} (ht : step s = .next t) : s.live = true ∧ Moves (fsmTurn s) t := by
  cases hl : s.live with
  | false =>
    rw [step_of_not_live hl, outcome_eq_next_iff] at ht
    simp [hl] at ht
  | true =>
    rw [step_of_live hl] at ht
    refine ⟨rfl, ?_⟩
    unfold act at ht
    split at ht
    case h_1 r hseq =>
      obtain ⟨hlive, rfl⟩ := outcome_eq_next_iff.mp ht
      exact .sequencer r hseq hlive
    case h_2 hseq =>
      split at ht
      case h_1 q hport => exact moves_of_actProbe hseq hport ht
      case h_2 hport => exact moves_of_actHost hseq hport ht

end Sys2Proof.Machine
end

section
/-! PROOFS. The scope (00_scope.md): the configuration and the machine's inputs under a step. -/

namespace Sys2Proof.Machine

/-! ### Nothing but taking a request touches the configuration, the host's list or the test port -/

/-- What stands around the block: its configuration, the host's list and the test port. -/
def State.surroundings (s : State) : Config × List CommandRequest × Option BusRequest := (s.cfg, s.requests, s.busProbe)

theorem surroundings_eq_iff {s t : State} :
    t.surroundings = s.surroundings ↔ t.cfg = s.cfg ∧ t.requests = s.requests ∧ t.busProbe = s.busProbe := by
  simp [State.surroundings]

theorem fsmTurn_surroundings (s : State) : (fsmTurn s).surroundings = s.surroundings := by
  simp [State.surroundings]

theorem surroundings_keptBySequencer (e : Config × List CommandRequest × Option BusRequest) :
    KeptBySequencer fun s => s.surroundings = e where
  srRead _ h := h
  srWrite _ _ h := h
  crRead _ h := h
  crWrite v s h := by rw [← h]; simp [busCrWrite, State.surroundings]
  keyRead _ h := h
  keyWrite _ _ h := h
  unmodelledRead _ _ h := h
  unmodelledWrite _ _ _ h := h
  fuseRead _ h := h
  arrayRead o s h := by rw [← h]; simp [State.surroundings]
  arrayWrite o w s h := by rw [← h]; simp [busArrayWrite, State.surroundings]
  moveOn _ _ h := h
  draws _ _ h := h
  cache _ h := h
  response _ _ h := h
  refusal _ h := h

theorem sequencerStep_surroundings (r : Run) (s : State) : (sequencerStep r s).surroundings = s.surroundings :=
  sequencerStep_keeps (surroundings_keptBySequencer _) r rfl

theorem exec_surroundings {i : Instr} {s t : State} (ht : exec i s = .next t) : t.surroundings = s.surroundings :=
  exec_keeps (surroundings_keptBySequencer _) (fun u h => (fsmTurn_surroundings u).trans h) rfl ht

/-- A move leaves the surroundings, or takes the test port's transaction, or the command in front of the host's list. -/
theorem Moves.surroundings {s t : State} (h : Moves s t) :
    t.surroundings = s.surroundings ∨ t.surroundings = s.popProbe.surroundings ∨
      t.surroundings = s.popRequest.surroundings := by
  cases h with
  | sequencer r hseq hlive => exact .inl (sequencerStep_surroundings r s)
  | probe q i t hseq hport hdecode hexec => exact .inr (.inl (exec_surroundings hexec))
  | wait hseq hport hlist => exact .inl rfl
  | command q i t hseq hport hfront hdecode hexec => exact .inr (.inr (exec_surroundings hexec))

/-- Settles O13, from the moves a step can make. -/
theorem stepKeepsConfiguration : Obligations.StepKeepsConfiguration := by
  unfold Obligations.StepKeepsConfiguration
  intro s t ht
  obtain ⟨-, hmoves⟩ := moves_of_step ht
  obtain h | h | h := hmoves.surroundings
  · obtain ⟨hcfg, hlist, hport⟩ := surroundings_eq_iff.mp h
    simp [hcfg, hlist, hport]
  · obtain ⟨hcfg, hlist, hport⟩ := surroundings_eq_iff.mp h
    simp [hcfg, hlist, hport]
  · obtain ⟨hcfg, hlist, hport⟩ := surroundings_eq_iff.mp h
    simp [hcfg, hlist, hport]

end Sys2Proof.Machine
end

section
/-! PROOFS. The scope (00_scope.md R8): a command is its transactions. -/

namespace Sys2Proof.Machine

/-! ### Runs of the machine -/

theorem run_one (s : State) : Host.Core.run Sys2Proof.core 1 s = step s := by
  cases h : step s <;> simp [Host.Core.run, Sys2Proof.core, h]

theorem run_succ_of_next {s t : State} (h : step s = .next t) (k : Nat) :
    Host.Core.run Sys2Proof.core (k + 1) s = Host.Core.run Sys2Proof.core k t := by
  simp [Host.Core.run, Sys2Proof.core, h]

/-- The outcome of a state is that of a run from it: of no step if it goes on, of one if it has stopped. -/
theorem exists_run_eq_outcome (s : State) : ∃ k, outcome s = Host.Core.run Sys2Proof.core k s := by
  cases h : s.live with
  | true => exact ⟨0, outcome_of_live h⟩
  | false => exact ⟨1, by rw [run_one, step_of_not_live h]⟩

/-! ### A sequencer run is single steps -/

/-- While a command goes on, nothing is recorded. -/
theorem live_of_sequencing {s : State} (h : s.sequencing = true) : s.live = true := by
  unfold State.sequencing at h
  split at h
  · simp at h
  · exact h

/-- While a command goes on, a step is the flash FSM's turn and the sequencer's (R172). -/
theorem step_of_sequencing {s : State} (h : s.sequencing = true) : step s = outcome (sequencerTurn (fsmTurn s)) := by
  rw [step_of_live (live_of_sequencing h)]
  cases hq : s.seq with
  | idle => simp [State.sequencing, hq] at h
  | running r => simp [act, sequencerTurn, hq]

/-- From the boundary after a transaction, the rest of a sequencer run is single steps of the machine. -/
theorem exists_run_eq_runSequencer_fsmTurn (n : Nat) (s : State) (h : s.sequencing = true) :
    ∃ k, outcome (runSequencer n (fsmTurn s)) = Host.Core.run Sys2Proof.core k s := by
  have hstep := step_of_sequencing h
  induction n generalizing s with
  | zero => exact ⟨1, by rw [run_one, hstep]; rfl⟩
  | succ n ih =>
    cases hv : (sequencerTurn (fsmTurn s)).sequencing with
    | false => exact ⟨1, by rw [run_one, hstep, runSequencer_of_not_sequencing hv]⟩
    | true =>
      obtain ⟨k, hk⟩ := ih _ hv (step_of_sequencing hv)
      rw [outcome_of_live (live_of_sequencing hv)] at hstep
      exact ⟨k + 1, by rw [runSequencer_succ_of_sequencing hv, run_succ_of_next hstep, hk]⟩

/-- A sequencer run is its first turn and then single steps of the machine. -/
theorem exists_run_eq_runSequencer (n : Nat) (s : State) :
    ∃ k, outcome (runSequencer n s) = Host.Core.run Sys2Proof.core k (sequencerTurn s) := by
  cases hv : (sequencerTurn s).sequencing with
  | false => rw [runSequencer_of_not_sequencing hv]; exact exists_run_eq_outcome _
  | true =>
    cases n with
    | zero => exact exists_run_eq_outcome _
    | succ n => rw [runSequencer_succ_of_sequencing hv]; exact exists_run_eq_runSequencer_fsmTurn n _ hv

/-- Settles O58: the sequencer's run of the command is single steps, and with no operation in flight the flash FSM's turn before
the first transaction does nothing. -/
theorem commandIsItsTransactions : Obligations.CommandIsItsTransactions := by
  unfold Obligations.CommandIsItsTransactions
  intro i c s hc
  rw [exec_of_command s hc]
  constructor
  · intro hready
    rw [runCommand_of_ready hready]
    exact exists_run_eq_runSequencer _ _
  · rintro ⟨hready, hop⟩
    have hsequencing : (s.accept c).sequencing = true := hready.left
    have hrun := exists_run_eq_runSequencer_fsmTurn (commandBound s.cfg c) (s.accept c) hsequencing
    rwa [fsmTurn_of_no_op (s := s.accept c) hop, ← runCommand_of_ready hready] at hrun

end Sys2Proof.Machine
end

section
/-! SUPPORT. The thirteen bus transactions are eleven operations of the bus, and what all of these leave unchanged. -/

namespace Sys2Proof.Machine

/-- The operations that the rows of R110 perform. -/
inductive BusOperation : (State → State) → Prop where
  | srRead : BusOperation busSrRead
  | srWrite (v : Word) : BusOperation (busSrWrite v)
  | crRead : BusOperation busCrRead
  | crWrite (v : Word) : BusOperation (busCrWrite v)
  | keyRead : BusOperation busKeyRead
  | keyWrite (v : Word) : BusOperation (busKeyWrite v)
  | unmodelledRead (o : BitVec 26) : BusOperation (busUnmodelledRead o)
  | unmodelledWrite (o : BitVec 26) (v : Word) : BusOperation (busUnmodelledWrite o v)
  | fuseRead : BusOperation busFuseRead
  | arrayRead (o : Nat) : BusOperation (busArrayRead o)
  | arrayWrite (o : Nat) (w : Word) : BusOperation (busArrayWrite o w)

/-- An instruction that is no command is a transaction of one of the operations (R130). -/
theorem exec_of_no_command {i : Instr} (h : commandOf i = none) : ∃ f, BusOperation f ∧ ∀ s, exec i s = transaction f s := by
  cases i with
  | init | unlock | lock | erase _ _ | write _ _ | read _ _ _ | pageSize | chipSize => cases h
  | srRd => exact ⟨_, .srRead, fun _ => rfl⟩
  | srWr v => exact ⟨_, .srWrite v, fun _ => rfl⟩
  | crRd => exact ⟨_, .crRead, fun _ => rfl⟩
  | crWr v => exact ⟨_, .crWrite v, fun _ => rfl⟩
  | keyrWr v => exact ⟨_, .keyWrite v, fun _ => rfl⟩
  | keyrRd => exact ⟨_, .keyRead, fun _ => rfl⟩
  | acrRd => exact ⟨_, .unmodelledRead acrOffset, fun _ => rfl⟩
  | acrWr v => exact ⟨_, .unmodelledWrite acrOffset v, fun _ => rfl⟩
  | optrRd => exact ⟨_, .unmodelledRead optrOffset, fun _ => rfl⟩
  | optrWr v => exact ⟨_, .unmodelledWrite optrOffset v, fun _ => rfl⟩
  | arrRd8 o => exact ⟨_, .arrayRead o.toNat, fun _ => rfl⟩
  | arrWr32 o w => exact ⟨_, .arrayWrite o.toNat w, fun _ => rfl⟩
  | fuseRd16 => exact ⟨_, .fuseRead, fun _ => rfl⟩

/-- From `s` to `t`, exactly one bus transaction was appended to `HISTORY` (R58). -/
def AppendsTransaction (s t : State) : Prop := ∃ d o v, t.history = s.history ++ [.bus d o v]

/-- What a bus transaction leaves unchanged whatever it does, and that it is logged. -/
structure BusFrame (s t : State) : Prop where
  cfg : t.cfg = s.cfg
  array : t.array = s.array
  chipSizeCache : t.chipSizeCache = s.chipSizeCache
  seq : t.seq = s.seq
  resp : t.resp = s.resp
  requests : t.requests = s.requests
  busProbe : t.busProbe = s.busProbe
  history : AppendsTransaction s t

theorem busArrayRead_appends (o : Nat) (s : State) : AppendsTransaction s (busArrayRead o s) := by
  unfold busArrayRead
  split
  · exact ⟨_, _, _, State.afterReadDraw_history _⟩
  · exact ⟨_, _, _, rfl⟩

theorem BusOperation.frame {f : State → State} (hf : BusOperation f) (s : State) : BusFrame s (f s) := by
  cases hf with
  | srRead | srWrite _ | crRead | keyRead | keyWrite _ | unmodelledRead _ | unmodelledWrite _ _ | fuseRead =>
    exact ⟨rfl, rfl, rfl, rfl, rfl, rfl, rfl, _, _, _, rfl⟩
  | crWrite v => constructor <;> simp [busCrWrite, AppendsTransaction]
  | arrayRead o =>
    have := busArrayRead_appends o s
    constructor <;> simp [this]
  | arrayWrite o w => constructor <;> simp [busArrayWrite, AppendsTransaction]

/-- What every operation of the bus keeps, the transactions keep. -/
theorem keptByTransactions_of_busOperation {P : State → Prop} (h : ∀ f, BusOperation f → ∀ s, P s → P (f s)) :
    KeptByTransactions P where
  srRead := h _ .srRead
  srWrite v := h _ (.srWrite v)
  crRead := h _ .crRead
  crWrite v := h _ (.crWrite v)
  keyRead := h _ .keyRead
  keyWrite v := h _ (.keyWrite v)
  unmodelledRead o := h _ (.unmodelledRead o)
  unmodelledWrite o v := h _ (.unmodelledWrite o v)
  fuseRead := h _ .fuseRead
  arrayRead o := h _ (.arrayRead o)
  arrayWrite o w := h _ (.arrayWrite o w)

end Sys2Proof.Machine
end

section
/-! PROOFS. The array and the frame of the bus (10_state.md R49, 40_register_bus.md R130). -/

namespace Sys2Proof.Machine

/-- Settles O14: the instruction is one operation of the bus, and the machine is live after it. -/
theorem busTransactionFrame : Obligations.BusTransactionFrame := by
  unfold Obligations.BusTransactionFrame
  intro i s t hc ht
  obtain ⟨f, hf, hexec⟩ := exec_of_no_command hc
  rw [hexec] at ht
  obtain ⟨-, hlive, rfl⟩ := transaction_eq_next_iff.mp ht
  obtain ⟨hfault, hrefused⟩ := live_iff.mp hlive
  have hframe := hf.frame s
  have hbyte (o : Nat) : (f s).byteAt o = s.byteAt o := by simp [State.byteAt, hframe.cfg, hframe.array]
  exact ⟨hframe.cfg, hframe.array, hbyte, hframe.chipSizeCache, hframe.seq, hframe.resp, hframe.requests,
    hframe.busProbe, hfault, hrefused, hframe.history⟩

/-- The sequencer has no operation that changes the stored bytes, or the configuration by which they are read (R49). -/
theorem array_keptBySequencer (s₀ : State) : KeptBySequencer fun s => s.array = s₀.array ∧ s.cfg = s₀.cfg where
  toKeptByTransactions := keptByTransactions_of_busOperation fun _ hf s h =>
    ⟨(hf.frame s).array.trans h.left, (hf.frame s).cfg.trans h.right⟩
  moveOn _ _ h := h
  draws _ _ h := h
  cache _ h := h
  response _ _ h := h
  refusal _ h := h

/-- Settles O15: a sequencer step is made of operations that keep the array. -/
theorem sequencerNeverProgramsArray : Obligations.SequencerNeverProgramsArray := by
  unfold Obligations.SequencerNeverProgramsArray
  intro s o
  obtain ⟨harray, hcfg⟩ := sequencerTurn_keeps (array_keptBySequencer s) s ⟨rfl, rfl⟩
  exact ⟨harray, by simp [State.byteAt, harray, hcfg]⟩

end Sys2Proof.Machine
end

section
/-! PROOFS. A step of a running sequencer is one transaction (10_state.md R56, 41_sequencer.md R172, R181). -/

namespace Sys2Proof.Machine

/-- Which command runs and at which position decides where a run goes on, whatever its phase and registers. -/
theorem EndsOrGoesOn.congr {r r' : Run} {s t : State} (h : EndsOrGoesOn r s t) (hcmd : r.cmd = r'.cmd)
    (hpos : r.pos = r'.pos) : EndsOrGoesOn r' s t := by
  cases h with
  | ends status value data => exact .ends status value data
  | goesOn phase regs =>
    have hgoto : s.goto r phase regs = s.goto r' phase regs := by simp [State.goto, hcmd, hpos]
    exact hgoto ▸ .goesOn phase regs

theorem EndsOrGoesOn.history {r : Run} {s t : State} (h : EndsOrGoesOn r s t) : t.history = s.history := by
  cases h <;> rfl

theorem EndsOrGoesOn.seq {r : Run} {s t : State} (h : EndsOrGoesOn r s t) :
    t.seq = .idle ∧ t.resp.isSome = true ∨ ∃ r', t.seq = .running r' ∧ r'.cmd = r.cmd ∧ r'.pos = r.pos + 1 := by
  cases h with
  | ends status value data => exact .inl ⟨rfl, rfl⟩
  | goesOn phase regs => exact .inr ⟨_, rfl, rfl, rfl⟩

/-- What a sequencer step of run `r` in `s` comes to: the machine stops, or one transaction is performed and the command ends or
goes on, or a command answers in its first step without a transaction (R172). -/
inductive OneTransaction (r : Run) (s : State) : State → Prop where
  | stops (t : State) (hlive : t.live = false) : OneTransaction r s t
  | performs (u t : State) (hu : AppendsTransaction s u) (ht : EndsOrGoesOn r u t) : OneTransaction r s t
  | answers (status : Status) (value : Word) (data : List Byte) (hphase : r.phase = .first) :
      OneTransaction r s (s.respond status value data)

/-- A transaction after which the command goes on only if nothing was recorded (R182). -/
theorem oneTransaction_andThen {f : State → State} (hf : BusOperation f) (r : Run) (s : State) {k : State → State}
    (hk : ∀ u, EndsOrGoesOn r u (k u)) : OneTransaction r s ((f s).andThen k) := by
  unfold State.andThen
  split
  case isTrue => exact .performs _ _ (hf.frame s).history (hk _)
  case isFalse h => exact .stops _ (by simpa using h)

theorem stepFuse_oneTransaction (r : Run) (s : State) : OneTransaction r s (stepFuse r s) := by
  have hd : AppendsTransaction s (discoverCapacity s) := ⟨_, _, _, rfl⟩
  unfold stepFuse
  split
  · exact .performs _ _ hd (.ends _ _ _)
  · exact .performs _ _ hd (.goesOn _ _)
  · exact .performs _ _ hd (.goesOn _ _)

@[simp] theorem floorStart_cmd (c : Config) (r : Run) : (floorStart c r).cmd = r.cmd := by
  unfold floorStart
  split <;> simp [*]

@[simp] theorem floorStart_pos (c : Config) (r : Run) : (floorStart c r).pos = r.pos := by
  unfold floorStart
  split <;> rfl

theorem stepBusy_oneTransaction (r : Run) (s : State) : OneTransaction r s (stepBusy r s) := by
  have hread : AppendsTransaction s (busSrRead s) := (BusOperation.srRead.frame s).history
  unfold stepBusy
  split
  · exact .performs _ _ hread (.ends _ _ _)
  · exact .performs _ _ hread ((firstUnit_endsOrGoesOn _ _).congr (by simp [Run.withStatus]) (by simp [Run.withStatus]))

theorem stepByteRead_oneTransaction (r : Run) (s : State) : OneTransaction r s (stepByteRead r s) := by
  refine oneTransaction_andThen (.arrayRead _) r s fun u => ?_
  split
  · exact .goesOn _ _
  · exact .ends _ _ _

theorem stepDiscover_oneTransaction {r : Run} (s : State) (hphase : r.phase = .first) :
    OneTransaction r s (stepDiscover r s) := by
  by_cases hc : s.chipSizeCache = 0
  · rw [stepDiscover_of_unknown hc]
    exact stepFuse_oneTransaction r s
  · obtain ⟨x, -, hx⟩ | ⟨-, hx⟩ | ⟨-, hx⟩ := stepDiscover_cases (r := r) hc <;> rw [hx]
    · exact .answers _ _ _ hphase
    · exact stepBusy_oneTransaction r s
    · exact stepByteRead_oneTransaction r s

theorem stepFirst_oneTransaction {r : Run} (s : State) (hphase : r.phase = .first) : OneTransaction r s (stepFirst r s) := by
  unfold stepFirst
  cases r.cmd with
  | init | erase _ _ | write _ _ | read _ _ _ => exact stepDiscover_oneTransaction s hphase
  | unlock => exact .performs _ _ (BusOperation.frame (.keyWrite _) s).history (.goesOn _ _)
  | lock => exact .performs _ _ (BusOperation.frame .crRead s).history (.goesOn _ _)
  | pageSize | chipSize => exact .answers _ _ _ hphase

theorem stepClearBefore_oneTransaction (unit : Nat) (r : Run) (s : State) :
    OneTransaction r s (stepClearBefore unit r s) := by
  have hclear (u : State) : AppendsTransaction u (busSrWrite srClear u) := (BusOperation.frame (.srWrite _) u).history
  unfold stepClearBefore
  split
  · split
    · exact .stops _ (by simp [refusePage])
    · exact .performs _ _ (hclear s) (.goesOn _ _)
  · exact .performs _ _ (hclear (s.afterDraws _)) (.goesOn _ _)
  all_goals exact .performs _ _ (hclear s) (.goesOn _ _)

theorem stepPoll_oneTransaction (k : Nat) (r : Run) (s : State) : OneTransaction r s (stepPoll k r s) := by
  obtain ⟨g, hg, -⟩ := stepPoll_phase (k := k) (r := r) (s := s)
  rw [hg]
  exact .performs _ _ (BusOperation.srRead.frame s).history (.goesOn _ _)

theorem sequencerStep_oneTransaction (r : Run) (s : State) : OneTransaction r s (sequencerStep r s) := by
  have hperforms {f : State → State} (hf : BusOperation f) {t : State} (ht : EndsOrGoesOn r (f s) t) :
      OneTransaction r s t := .performs _ t (hf.frame s).history ht
  unfold sequencerStep
  cases hphase : r.phase with
  | first => exact stepFirst_oneTransaction s hphase
  | busy => exact stepBusy_oneTransaction r s
  | clearBefore unit => exact stepClearBefore_oneTransaction unit r s
  | modeRead => exact hperforms .crRead (.goesOn _ _)
  | modeWrite => exact oneTransaction_andThen (.crWrite _) r s (afterModeWrite_endsOrGoesOn r)
  | lowWord => exact oneTransaction_andThen (.arrayWrite _ _) r s fun _ => .goesOn _ _
  | highWord => exact oneTransaction_andThen (.arrayWrite _ _) r s (enterPoll_endsOrGoesOn r)
  | poll k => exact stepPoll_oneTransaction k r s
  | clearAfter => exact hperforms (.srWrite _) (.goesOn _ _)
  | cleanupRead => exact hperforms .crRead (.goesOn _ _)
  | cleanupWrite => exact oneTransaction_andThen (.crWrite _) r s (nextUnit_endsOrGoesOn r)
  | secondKey => exact hperforms (.keyWrite _) (.ends _ _ _)
  | lockWrite => exact oneTransaction_andThen (.crWrite _) r s fun _ => .ends _ _ _
  | byteRead => exact stepByteRead_oneTransaction r s

/-- A step of a machine whose sequencer runs is the flash FSM's turn and the sequencer's step, which leaves it live. -/
theorem step_of_running {s t : State} {r : Run} (hseq : s.seq = .running r) (ht : step s = .next t) :
    t = sequencerStep r (fsmTurn s) ∧ t.live = true := by
  obtain ⟨-, hmoves⟩ := moves_of_step ht
  cases hmoves with
  | sequencer r' hseq' hlive =>
    obtain rfl : r = r' := by simpa [hseq] using hseq'
    exact ⟨rfl, hlive⟩
  | probe _ _ _ hidle | wait hidle | command _ _ _ hidle => simp [hseq] at hidle

/-- Settles O8, from the three ways a sequencer step can end; the machine that goes on is not the one that stopped. -/
theorem runningStepIsOneTransaction : Obligations.RunningStepIsOneTransaction := by
  unfold Obligations.RunningStepIsOneTransaction
  intro s t r _ hseq ht
  obtain ⟨hstep, hlive⟩ := step_of_running hseq ht
  refine ⟨by rw [hstep, sequencerTurn_of_running (by simpa using hseq)], ?_⟩
  have hone : OneTransaction r (fsmTurn s) t := hstep ▸ sequencerStep_oneTransaction r (fsmTurn s)
  cases hone with
  | stops _ hdead => simp [hdead] at hlive
  | performs u _ hu hend =>
    obtain ⟨d, o, v, hhistory⟩ := hu
    exact ⟨hend.seq, [.bus d o v], hend.history.trans hhistory, by simp [Event.isBus], .inl rfl⟩
  | answers status value data hphase =>
    exact ⟨.inl ⟨rfl, rfl⟩, [], by simp, by simp, .inr ⟨rfl, hphase, rfl⟩⟩

end Sys2Proof.Machine
end

section
/-! SUPPORT. The invariant (10_state.md R48): its parts as propositions, and the operations that keep it. -/

namespace Sys2Proof.Machine

/-! ### The invariant's parts -/

theorem stateInv_iff {s : State} :
    StateInv s ↔ s.cfg.Admissible ∧ s.memoryOk = true ∧ s.keysOk = true ∧ s.latchOk = true ∧ s.opOk = true ∧
      s.cacheOk = true := by
  simp [and_assoc]

/-- Unlocked means that the key stage is Expect1 (R48). -/
theorem keysOk_iff {s : State} : s.keysOk = true ↔ (s.lock = false → s.keyStage = .expect1) := by
  cases h : s.lock <;> simp [State.keysOk, h]

/-- A latch means PG = 1, and names a double-word of the array (R46, R48). -/
theorem latchOk_iff {s : State} :
    s.latchOk = true ↔
      ∀ l, s.latch = some l → s.pg = true ∧ l.offset % 8 = 0 ∧ l.offset + 8 ≤ s.cfg.arraySize := by
  cases h : s.latch <;> simp [State.latchOk, h, and_assoc]

/-- The array's size is a multiple of 1024 bytes that fits a word, and DISCOVER computes it (R10, R174). -/
theorem chipSizeOf_toNat (c : Config) : (chipSizeOf c.fuseValue).toNat = c.arraySize := by
  have hfuse := c.fuseValue.isLt
  simp only [chipSizeOf, Config.arraySize, BitVec.toNat_mul, BitVec.toNat_setWidth, BitVec.reduceToNat]
  omega

/-! ### The register block keeps the invariant -/

section
variable {s : State}

/-- A CR write marks only an operation in flight as aborted, and clears the latch with PG (R136, R137). -/
theorem stateInv_crFields (v : Word) (h : StateInv s) : StateInv (crFields v s) := by
  obtain ⟨hcfg, hmem, hkeys, hlatch, hop, hcache⟩ := stateInv_iff.mp h
  have hlatch' : (crFields v s).latchOk = true := by
    rw [latchOk_iff] at hlatch ⊢
    simpa [crFields] using fun l hpg hl => And.intro hpg (hlatch l hl).right
  have hop' : (crFields v s).opOk = true := by
    cases hs : s.op <;> simpa [State.opOk, crFields, abortCheck, Op.isErase, Op.isProgram, hs] using hop
  exact stateInv_iff.mpr ⟨hcfg, hmem, hkeys, hlatch', hop', hcache⟩

theorem stateInv_afterStartDraw (h : StateInv s) : StateInv s.afterStartDraw := by
  unfold State.afterStartDraw
  split
  · exact h
  · exact h

/-- An operation whose target lies in the array may go in flight. -/
theorem stateInv_begin {op : Op} (h : StateInv s) (hop : (s.begin op).opOk = true) : StateInv (s.begin op) := by
  obtain ⟨hcfg, hmem, hkeys, hlatch, -, hcache⟩ := stateInv_iff.mp h
  exact stateInv_iff.mpr ⟨hcfg, hmem, hkeys, hlatch, hop, hcache⟩

theorem stateInv_withoutLatch (h : StateInv s) : StateInv { s with latch := none } := by
  obtain ⟨hcfg, hmem, hkeys, -, hop, hcache⟩ := stateInv_iff.mp h
  exact stateInv_iff.mpr ⟨hcfg, hmem, hkeys, rfl, hop, hcache⟩

/-- An erase starts only of a page that lies whole in the array (R162). -/
theorem stateInv_startErase (h : StateInv s) : StateInv (startErase s) := by
  obtain ⟨hs, -⟩ | ⟨hpage, ⟨hs, -⟩ | ⟨hs, -⟩⟩ := startErase_cases s <;> rw [hs]
  · exact h
  · exact stateInv_begin (stateInv_afterStartDraw h) (by simpa [State.opOk] using hpage)
  · exact stateInv_afterStartDraw h

theorem stateInv_startCheck (v : Word) (h : StateInv s) : StateInv (startCheck v s) := by
  obtain ⟨hs, -⟩ | ⟨-, -, -, ⟨hs, -⟩ | ⟨hs, -⟩⟩ := startCheck_cases v s <;> rw [hs]
  · exact h
  · exact h
  · exact stateInv_startErase h

theorem stateInv_setLockIf (v : Word) (h : StateInv s) : StateInv (setLockIf v s) := by
  obtain ⟨hcfg, hmem, hkeys, hlatch, hop, hcache⟩ := stateInv_iff.mp h
  have hkeys' : (setLockIf v s).keysOk = true := by
    rw [keysOk_iff] at hkeys ⊢
    exact fun hlock => hkeys (Bool.or_eq_false_iff.mp hlock).left
  exact stateInv_iff.mpr ⟨hcfg, hmem, hkeys', hlatch, hop, hcache⟩

theorem stateInv_busCrWrite (v : Word) (h : StateInv s) : StateInv (busCrWrite v s) := by
  unfold busCrWrite crWriteEffect crWriteUnlocked
  split
  · exact h
  · refine stateInv_setLockIf v ?_
    split
    · exact stateInv_startCheck v (stateInv_crFields v h)
    · exact stateInv_crFields v h

/-- A key write that unlocks is of KEY2 in stage Expect2, and leaves Expect1 (R142). -/
theorem nextKeyStage_of_keyUnlocks {v : Word} (h : keyUnlocks v s = true) : nextKeyStage v s = .expect1 := by
  cases hs : s.keyStage <;> simp_all [keyUnlocks, nextKeyStage]

theorem stateInv_busKeyWrite (v : Word) (h : StateInv s) : StateInv (busKeyWrite v s) := by
  obtain ⟨hcfg, hmem, hkeys, hlatch, hop, hcache⟩ := stateInv_iff.mp h
  have hkeys' : (busKeyWrite v s).keysOk = true := by
    rw [keysOk_iff] at hkeys ⊢
    cases hlock : s.lock with
    | false => simpa [hlock] using hkeys
    | true => simpa [hlock] using nextKeyStage_of_keyUnlocks
  exact stateInv_iff.mpr ⟨hcfg, hmem, hkeys', hlatch, hop, hcache⟩

/-! ### The array's bus transactions keep it -/

theorem stateInv_busArrayRead (o : Nat) (h : StateInv s) : StateInv (busArrayRead o s) := by
  unfold busArrayRead State.afterReadDraw
  split
  · split <;> exact h
  · exact h

/-- A program starts only at a latched offset, which names a double-word of the array. -/
theorem stateInv_highWordWrite (o : Nat) (w : Word) (h : StateInv s) : StateInv (highWordWrite o w s) := by
  obtain ⟨hs, -⟩ | ⟨l, hl, -, hs⟩ := highWordWrite_cases o w s <;> rw [hs]
  · exact h
  · obtain ⟨-, -, -, hlatch, -, -⟩ := stateInv_iff.mp h
    obtain ⟨-, haligned, hin⟩ := latchOk_iff.mp hlatch l hl
    unfold startProgram
    split
    · exact stateInv_withoutLatch (stateInv_begin (stateInv_afterStartDraw h) (by simp [State.opOk, haligned, hin]))
    · exact stateInv_withoutLatch (stateInv_afterStartDraw h)

/-- A low word is latched at an aligned offset inside the array, whose size is a multiple of 8. -/
theorem stateInv_latchLowWord {o : Nat} {w : Word} (h : StateInv s) (hpg : s.pg = true) (haligned : o % 8 = 0)
    (hin : o + 4 ≤ s.cfg.arraySize) : StateInv { s with latch := some ⟨o, w⟩ } := by
  obtain ⟨hcfg, hmem, hkeys, -, hop, hcache⟩ := stateInv_iff.mp h
  have hdouble : o + 8 ≤ s.cfg.arraySize := by
    unfold Config.arraySize at hin ⊢
    omega
  exact stateInv_iff.mpr ⟨hcfg, hmem, hkeys, by simp [State.latchOk, hpg, haligned, hdouble], hop, hcache⟩

theorem stateInv_unarmedWrite (o : Nat) (w : Word) (h : StateInv s) : StateInv (unarmedWrite o w s) := by
  unfold unarmedWrite
  split
  · exact h
  · exact h

theorem stateInv_arrayWriteEffect (o : Nat) (w : Word) (h : StateInv s) : StateInv (arrayWriteEffect o w s) := by
  obtain ⟨hs, -⟩ | ⟨⟨-, hin⟩, ⟨hs, -⟩ | ⟨hpg, ⟨hs, -⟩ | ⟨-, ⟨hs, haligned⟩ | ⟨hs, -⟩⟩⟩⟩ :=
    arrayWriteEffect_cases o w s <;> rw [hs]
  · exact h
  · exact stateInv_unarmedWrite o w h
  · exact h
  · exact stateInv_latchLowWord h hpg haligned hin
  · exact stateInv_highWordWrite o w h

/-! ### The completion step keeps it -/

theorem stateInv_putBytes {o : Nat} {bytes : List Byte} (h : StateInv s) (hin : o + bytes.length ≤ s.cfg.arraySize) :
    StateInv (s.putBytes o bytes) := by
  obtain ⟨hcfg, hmem, hkeys, hlatch, hop, hcache⟩ := stateInv_iff.mp h
  exact stateInv_iff.mpr ⟨hcfg, putBytes_memoryOk s o bytes hmem hin, hkeys, hlatch, hop, hcache⟩

theorem stateInv_drawInto {o n : Nat} (h : StateInv s) (hin : o + n ≤ s.cfg.arraySize) : StateInv (s.drawInto o n) :=
  stateInv_putBytes (bytes := s.drawBytes 0 n) h (by simpa using hin)

theorem stateInv_completeErase {p : BitVec 6} (h : StateInv s) (hin : (p.toNat + 1) * s.cfg.page ≤ s.cfg.arraySize) :
    StateInv (completeErase p s) := by
  have hend : p.toNat * s.cfg.page + s.cfg.page ≤ s.cfg.arraySize := by rwa [← Nat.succ_mul]
  unfold completeErase
  split
  · exact h
  · split
    · exact stateInv_drawInto h hend
    · exact stateInv_putBytes h (by simpa using hend)

theorem stateInv_completeProgram {o : Nat} {lo hi : Word} (h : StateInv s) (hin : o + 8 ≤ s.cfg.arraySize) :
    StateInv (completeProgram o lo hi s) := by
  unfold completeProgram
  split
  · exact h
  · split
    · exact stateInv_drawInto h hin
    · split
      · exact stateInv_putBytes h hin
      · exact stateInv_drawInto h hin

theorem stateInv_finishOp (op : Op) (h : StateInv s) : StateInv (finishOp op s) := by
  obtain ⟨hcfg, hmem, hkeys, hlatch, -, hcache⟩ := stateInv_iff.mp h
  exact stateInv_iff.mpr ⟨hcfg, hmem, hkeys, hlatch, rfl, hcache⟩

/-- The target of the operation in flight lies in the array, so completion changes no other offset. -/
theorem stateInv_fsmComplete (h : StateInv s) : StateInv (fsmComplete s) := by
  obtain ⟨-, -, -, -, hop, -⟩ := stateInv_iff.mp h
  unfold fsmComplete
  cases hs : s.op with
  | none => exact h
  | erase p => exact stateInv_finishOp _ (stateInv_completeErase h (by simpa [State.opOk, hs] using hop))
  | program o lo hi =>
    obtain ⟨-, hin⟩ : o % 8 = 0 ∧ o + 8 ≤ s.cfg.arraySize := by simpa [State.opOk, hs] using hop
    exact stateInv_finishOp _ (stateInv_completeProgram h hin)

end

theorem stateInv_fsmTurn (s : State) (h : StateInv s) : StateInv (fsmTurn s) := by
  unfold fsmTurn
  split
  · exact h
  · split
    · exact stateInv_fsmComplete (s := s.afterDraws 1) h
    · exact h

/-! ### The sequencer keeps it -/

theorem stateInv_cacheCapacity {s : State} (h : StateInv s) :
    StateInv { s with chipSizeCache := chipSizeOf s.cfg.fuseValue } := by
  obtain ⟨hcfg, hmem, hkeys, hlatch, hop, -⟩ := stateInv_iff.mp h
  exact stateInv_iff.mpr ⟨hcfg, hmem, hkeys, hlatch, hop, by simp [State.cacheOk, chipSizeOf_toNat]⟩

/-- Only CR, KEYR, the array writes and the cache touch what the invariant is about. -/
theorem stateInv_keptBySequencer : KeptBySequencer StateInv where
  srRead _ h := h
  srWrite _ _ h := h
  crRead _ h := h
  crWrite v _ h := stateInv_busCrWrite v h
  keyRead _ h := h
  keyWrite v _ h := stateInv_busKeyWrite v h
  unmodelledRead _ _ h := h
  unmodelledWrite _ _ _ h := h
  fuseRead _ h := h
  arrayRead o _ h := stateInv_busArrayRead o h
  arrayWrite o w _ h := stateInv_arrayWriteEffect o w h
  moveOn _ _ h := h
  draws _ _ h := h
  cache _ h := stateInv_cacheCapacity h
  response _ _ h := h
  refusal _ h := h

end Sys2Proof.Machine
end

section
/-! PROOFS. The invariant holds at reset and every step keeps it (10_state.md R48, R62). -/

namespace Sys2Proof.Machine

/-- Settles O12: the flash FSM's turn keeps the invariant, and so does the move that follows it. -/
theorem stepKeepsInvariant : Obligations.StepKeepsInvariant := by
  unfold Obligations.StepKeepsInvariant
  intro s t h ht
  obtain ⟨-, hmoves⟩ := moves_of_step ht
  have hturn : StateInv (fsmTurn s) := stateInv_fsmTurn s h
  cases hmoves with
  | sequencer r _ _ => exact sequencerStep_keeps stateInv_keptBySequencer r hturn
  | probe q i t _ _ _ hexec =>
    exact exec_keeps (s := (fsmTurn s).popProbe) stateInv_keptBySequencer stateInv_fsmTurn hturn hexec
  | wait _ _ _ => exact hturn
  | command q i t _ _ _ _ hexec =>
    exact exec_keeps (s := (fsmTurn s).popRequest) stateInv_keptBySequencer stateInv_fsmTurn hturn hexec

/-! ### Reset -/

theorem atReset_arraySize : Config.atReset.arraySize = 131072 := rfl

theorem atReset_page : Config.atReset.page = 2048 := rfl

/-- `FLASH_BASE` at reset is the open page number times the page size, with no wrap. -/
theorem atReset_flashBase : Config.atReset.flashBase.toNat = 2048 * Config.openFlashPage.val := by
  have hpage := Config.openFlashPage.isLt
  simp only [Config.atReset, BitVec.toNat_ofNat]
  omega

/-- `KEY2` at reset is above `KEY1` by a distance that is no multiple of 2^32. -/
theorem atReset_keys_ne : Config.atReset.key1 ≠ Config.atReset.key2 := by
  have hgap := Config.openKeyGap.isLt
  intro heq
  have heq := congrArg BitVec.toNat heq
  simp only [Config.atReset, BitVec.toNat_add, BitVec.toNat_ofNat, BitVec.reduceToNat] at heq
  omega

/-- The parameters at reset meet R10, whatever the open ones are. -/
theorem atReset_admissible : Config.atReset.Admissible := by
  have hpage := Config.openFlashPage.isLt
  have hroom : 2048 * Config.openFlashPage.val ≤ 4294836224 := by omega
  have herased : Config.atReset.erasedByte = 0xFF := rfl
  simp [Config.Admissible, Config.admissible, atReset_page, atReset_arraySize, atReset_flashBase, atReset_keys_ne, herased, hroom]

/-- Settles O11: the parameters are admissible, and every other part holds by the values at reset. -/
theorem resetMeetsInvariant : Obligations.ResetMeetsInvariant := by
  unfold Obligations.ResetMeetsInvariant
  exact stateInv_iff.mpr ⟨atReset_admissible, rfl, rfl, rfl, rfl, rfl⟩

/-- Settles O10: each value is a field of the reset state, or a register image of such fields. -/
theorem resetValues : Obligations.ResetValues := by
  unfold Obligations.ResetValues
  have hcr : State.reset.crWord = 0x80000000 := by decide
  have hsr : State.reset.srWord = 0x00000000 := by decide
  exact ⟨rfl, rfl, rfl, rfl, rfl, rfl, rfl, hcr, hsr, rfl, rfl, rfl, rfl, fun _ => rfl, rfl, rfl, rfl, rfl, rfl, rfl, rfl,
    rfl⟩

end Sys2Proof.Machine
end

section
/-! PROOFS. A recorded fault or refusal is final (10_state.md R60, R61, 41_sequencer.md R182). -/

namespace Sys2Proof.Machine

/-- No instruction has an effect once the machine has stopped (R130, R182). -/
theorem exec_of_not_live (i : Instr) {s : State} (h : s.live = false) : exec i s = outcome s := by
  have hstopped : ¬ s.live = true := by simp [h]
  cases hc : commandOf i with
  | some c =>
    rw [exec_of_command s hc]
    exact if_neg hstopped
  | none =>
    obtain ⟨f, -, hexec⟩ := exec_of_no_command hc
    rw [hexec]
    exact if_neg hstopped

/-- Settles O7: every step and instruction of a stopped machine answers the outcome of its state. -/
theorem recordedStopIsFinal : Obligations.RecordedStopIsFinal := by
  unfold Obligations.RecordedStopIsFinal
  intro s h
  rw [step_of_not_live h]
  exact ⟨fun t => by simp [outcome_eq_next_iff, h], fun i => exec_of_not_live i h, fun f hf => outcome_of_fault hf,
    fun why hf hr => outcome_of_refused hf hr⟩

end Sys2Proof.Machine
end

section
/-! SUPPORT. How a command's run is cut into parts: from one transaction boundary to a later one, from the command's start through
discovery, and from the last boundary to the response (41_sequencer.md R172, R174, R181). -/

namespace Sys2Proof.Machine

/-! ### From one transaction boundary to another -/

/-- At the transaction boundary `s` the run goes on to the boundary `t`, within `n` sequencer steps. -/
def Reaches (n : Nat) (s t : State) : Prop := ∃ k ≤ n, ∀ m, runSequencer (k + m) (fsmTurn s) = runSequencer m (fsmTurn t)

theorem Reaches.refl (s : State) : Reaches 0 s s := ⟨0, Nat.le_refl 0, fun m => by rw [Nat.zero_add]⟩

theorem Reaches.mono {n n' : Nat} {s t : State} (h : Reaches n s t) (hn : n ≤ n') : Reaches n' s t := by
  obtain ⟨k, hk, hrun⟩ := h
  exact ⟨k, hk.trans hn, hrun⟩

theorem Reaches.trans {n n' : Nat} {s t u : State} (h : Reaches n s t) (h' : Reaches n' t u) : Reaches (n + n') s u := by
  obtain ⟨k, hk, hrun⟩ := h
  obtain ⟨k', hk', hrun'⟩ := h'
  exact ⟨k + k', Nat.add_le_add hk hk', fun m => by rw [Nat.add_assoc, hrun, hrun']⟩

/-- One sequencer step, after which the command goes on. -/
theorem reaches_of_turn {s t : State} (h : sequencerTurn (fsmTurn s) = t) (ht : t.sequencing = true) : Reaches 1 s t :=
  ⟨1, Nat.le_refl 1, fun m => by rw [Nat.add_comm, runSequencer_succ_of_sequencing (h.symm ▸ ht), h]⟩

/-- Boundaries whose next sequencer step is the same are the same to the run. -/
theorem reaches_of_same_turn {s t : State} (h : sequencerTurn (fsmTurn s) = sequencerTurn (fsmTurn t)) : Reaches 0 s t := by
  refine ⟨0, Nat.le_refl 0, fun m => ?_⟩
  rw [Nat.zero_add]
  cases m <;> simp [runSequencer, h]

/-- A run that has enough steps to come to its last boundary ends with the step there. -/
theorem Reaches.runSequencer_eq {n N : Nat} {s t : State} (h : Reaches n s t) (hn : n ≤ N)
    (hend : (sequencerTurn (fsmTurn t)).sequencing = false) : runSequencer N (fsmTurn s) = sequencerTurn (fsmTurn t) := by
  obtain ⟨k, hk, hrun⟩ := h
  rw [← Nat.add_sub_cancel' (hk.trans hn), hrun, runSequencer_of_not_sequencing hend]

theorem sequencing_of_idle {s : State} (h : s.seq = .idle) : s.sequencing = false := by
  simp [State.sequencing, h]

/-- A command given to a quiet machine answers with the state in which its run ends (R181). -/
theorem Reaches.exec_eq {i : Instr} {c : Command} {n : Nat} {s t u : State} (hi : commandOf i = some c) (hs : Quiet s)
    (h : Reaches n (s.accept c) t) (hn : n ≤ commandBound s.cfg c) (hend : sequencerTurn (fsmTurn t) = u)
    (hidle : u.seq = .idle) (hlive : u.live = true) : exec i s = .next u := by
  obtain ⟨hready, hop⟩ := hs
  have hrun := h.runSequencer_eq hn (sequencing_of_idle (hend ▸ hidle))
  rw [fsmTurn_of_no_op (s := s.accept c) hop, hend] at hrun
  rw [exec_of_command s hi, runCommand_of_ready hready, hrun, outcome_of_live hlive]

/-! ### The capacity -/

/-- The capacity is the array's size, cached or not (R72, R174). -/
theorem capacity_eq_arraySize {s : State} (h : s.cacheOk = true) : s.capacity = s.cfg.arraySize := by
  simp only [State.cacheOk, Bool.or_eq_true, decide_eq_true_eq] at h
  unfold State.capacity
  split
  case isTrue => rfl
  case isFalse hcache => exact h.resolve_left hcache

theorem chipSizeOf_eq_ofNat (v : Half) : chipSizeOf v = BitVec.ofNat 32 (v.toNat * 1024) := by
  apply BitVec.eq_of_toNat_eq
  simp [chipSizeOf]

theorem discovered_of_unknown {s : State} (h : s.chipSizeCache = 0) : s.discovered = discoverCapacity s := by
  unfold State.discovered
  rw [if_pos h, ← chipSizeOf_eq_ofNat]
  rfl

theorem discovered_of_cached {s : State} (h : s.chipSizeCache ≠ 0) : s.discovered = s := if_neg h

/-- Discovery changes the cache and `HISTORY` alone (R174). -/
theorem exists_discovered_eq (s : State) : ∃ cache es, s.discovered = { s with chipSizeCache := cache, history := es } := by
  unfold State.discovered
  split
  · exact ⟨_, _, rfl⟩
  · exact ⟨_, _, rfl⟩

/-- After discovery the cache holds the array's size (R174). -/
theorem discovered_chipSizeCache_toNat {s : State} (h : s.cacheOk = true) :
    s.discovered.chipSizeCache.toNat = s.cfg.arraySize := by
  by_cases hcache : s.chipSizeCache = 0
  · rw [discovered_of_unknown hcache]
    exact chipSizeOf_toNat s.cfg
  · simp only [State.cacheOk, Bool.or_eq_true, decide_eq_true_eq] at h
    rw [discovered_of_cached hcache]
    exact h.resolve_left hcache

theorem inRange_of_le {cs o len : Nat} (hlen : len ≠ 0) (h : o + len ≤ cs) : inRange cs o len = true := by
  simp only [inRange, Bool.and_eq_true, decide_eq_true_eq]
  omega

/-! ### Discovery -/

/-- The sequencer runs `r`. -/
def State.withRun (r : Run) (s : State) : State := { s with seq := .running r }

/-- With no operation in flight, a boundary of run `r` is followed by the step of `r`. -/
theorem boundary_withRun (r : Run) {s : State} (hop : s.op = .none) :
    sequencerTurn (fsmTurn (s.withRun r)) = sequencerStep r (s.withRun r) := by
  rw [fsmTurn_of_no_op (s := s.withRun r) hop]
  rfl

/-- A run of a command whose registers are as the command started; the host issues it at position 0 in phase `first` (R55,
R170). -/
def startRun (c : Command) (pos : Nat) (phase : Phase) : Run := ⟨c, pos, phase, Regs.start c⟩

section
variable {s : State} {c : Command} {phase : Phase}

/-- The fuse read whose checks find that transactions follow (R174, R175). -/
theorem stepFuse_goesOn {r : Run}
    (h : afterDiscover s.cfg (chipSizeOf s.cfg.fuseValue) r.cmd = .busyCheck ∧ phase = .busy ∨
      afterDiscover s.cfg (chipSizeOf s.cfg.fuseValue) r.cmd = .byteReads ∧ phase = .byteRead) :
    stepFuse r s = (discoverCapacity s).goto r phase r.regs := by
  unfold stepFuse
  obtain ⟨h, rfl⟩ | ⟨h, rfl⟩ := h <;> rw [h]

/-- A command that discovers, and whose checks find that transactions follow, comes to the first of them with the capacity
discovered; the fuse read is a step of its own, and with the capacity cached there is none (R172, R174). -/
theorem reaches_discovered (hop : s.op = .none) (hlive : s.live = true)
    (hfirst : sequencerTurn (s.accept c) = stepDiscover (startRun c 0 .first) (s.accept c))
    (hchecked : afterDiscover s.cfg s.discovered.chipSizeCache c = .busyCheck ∧ phase = .busy ∨
      afterDiscover s.cfg s.discovered.chipSizeCache c = .byteReads ∧ phase = .byteRead)
    (hcached : s.chipSizeCache ≠ 0 → stepDiscover (startRun c 0 .first) (s.accept c) =
      sequencerStep (startRun c 0 phase) (s.withRun (startRun c 0 phase))) :
    ∃ pos, Reaches 1 (s.accept c) (s.discovered.withRun (startRun c pos phase)) := by
  have haccept : fsmTurn (s.accept c) = s.accept c := fsmTurn_of_no_op hop
  by_cases hcache : s.chipSizeCache = 0
  · rw [discovered_of_unknown hcache] at hchecked ⊢
    refine ⟨1, reaches_of_turn ?_ hlive⟩
    rw [haccept, hfirst, stepDiscover_of_unknown (s := s.accept c) hcache]
    exact stepFuse_goesOn (s := s.accept c) (r := startRun c 0 .first) hchecked
  · refine ⟨0, (reaches_of_same_turn ?_).mono (Nat.zero_le 1)⟩
    rw [discovered_of_cached hcache, boundary_withRun _ hop, haccept, hfirst, hcached hcache]

theorem stepDiscover_of_busyCheck {r : Run} (hcache : s.chipSizeCache ≠ 0)
    (h : afterDiscover s.cfg s.chipSizeCache r.cmd = .busyCheck) : stepDiscover r s = stepBusy r s := by
  rw [stepDiscover, if_neg hcache, h]

theorem stepDiscover_of_byteReads {r : Run} (hcache : s.chipSizeCache ≠ 0)
    (h : afterDiscover s.cfg s.chipSizeCache r.cmd = .byteReads) : stepDiscover r s = stepByteRead r s := by
  rw [stepDiscover, if_neg hcache, h]

/-- With the capacity cached, the first step of a command that goes on to BUSY_CHECK is BUSY_CHECK's. -/
theorem stepDiscover_startRun_of_busyCheck (hcache : s.chipSizeCache ≠ 0)
    (hchecked : afterDiscover s.cfg s.chipSizeCache c = .busyCheck) :
    stepDiscover (startRun c 0 .first) (s.accept c) =
      sequencerStep (startRun c 0 .busy) (s.withRun (startRun c 0 .busy)) := by
  rw [stepDiscover_of_busyCheck (r := startRun c 0 .first) (s := s.accept c) hcache hchecked]
  cases c <;> rfl

end

end Sys2Proof.Machine
end

section
/-! SUPPORT. READ of a block with no operation in flight copies the array (45_read_accessors.md R230). -/

namespace Sys2Proof.Machine

section
variable {s : State}

/-! ### The bytes of a span -/

/-- The `n` bytes from an offset on. -/
def State.bytesFrom (s : State) (a n : Nat) : List Byte := (List.range n).map fun i => s.byteAt (a + i)

/-- The `HISTORY` entry of reading the stored byte at an offset (R58, R147). -/
def State.readEvent (s : State) (o : Nat) : Event :=
  .bus (descriptor false spaceArray widthByte (BitVec.ofNat 26 o)) o (some ((s.byteAt o).setWidth 32))

/-- The `HISTORY` entries of reading `n` bytes from an offset on. -/
def State.readEvents (s : State) (a n : Nat) : List Event := (List.range n).map fun i => s.readEvent (a + i)

/-- The block `s` after `n` byte reads from an offset on: nothing but `HISTORY` tells. -/
def State.afterReads (s : State) (a n : Nat) : State := { s with history := s.history ++ s.readEvents a n }

@[simp] theorem bytesFrom_length (a n : Nat) : (s.bytesFrom a n).length = n := by simp [State.bytesFrom]

theorem bytesFrom_succ (a n : Nat) : s.bytesFrom a (n + 1) = s.bytesFrom a n ++ [s.byteAt (a + n)] := by
  simp [State.bytesFrom, List.range_succ]

theorem log_afterReads (a n : Nat) : (s.afterReads a n).log (s.readEvent (a + n)) = s.afterReads a (n + 1) := by
  simp [State.afterReads, State.log, State.readEvents, List.range_succ]

/-! ### One byte read -/

/-- A byte read inside the array of a block with no operation in flight (R147). -/
theorem busArrayRead_of_no_op {o : Nat} (hop : s.op = .none) (ho : o < s.cfg.arraySize) :
    busArrayRead o s = s.log (s.readEvent o) := by
  simp only [busArrayRead, if_pos ho, State.arrayValue, State.afterReadDraw, State.logArrayRead_op, hop]
  rfl

/-- A byte read of READ with no operation in flight: the next one follows, or the response after the last (R230). -/
theorem stepByteRead_of_no_op {r : Run} {o : Nat} (hop : s.op = .none) (hlive : s.live = true)
    (ho : r.regs.a.toNat + r.regs.buf.length = o) (hin : o < s.cfg.arraySize) :
    stepByteRead r s =
      if r.regs.buf.length + 1 < r.regs.n.toNat then
        (s.log (s.readEvent o)).goto r .byteRead { r.regs with buf := r.regs.buf ++ [s.byteAt o] }
      else (s.log (s.readEvent o)).respond .ok r.regs.n (r.regs.buf ++ [s.byteAt o]) := by
  have hvalue : s.arrayValue o = s.byteAt o := by simp [State.arrayValue, hop]
  have hlive' : (s.log (s.readEvent o)).live = true := hlive
  rw [stepByteRead, ho, busArrayRead_of_no_op hop hin, andThen_of_live hlive', hvalue]

/-! ### The run of READ -/

variable {a b : Word}

/-- The run of READ that has read the `n` bytes of `s` before its next byte read (R230). -/
def readRun (s : State) (a b : Word) (pos n : Nat) : Run :=
  ⟨.read a b true, pos, .byteRead, { Regs.start (.read a b true) with buf := s.bytesFrom a.toNat n }⟩

/-- READ before its byte read number `n + 1`. -/
def State.reading (s : State) (a b : Word) (pos n : Nat) : State :=
  (s.afterReads a.toNat n).withRun (readRun s a b pos n)

theorem reading_zero (pos : Nat) : s.reading a b pos 0 = s.withRun (startRun (.read a b true) pos .byteRead) := by
  have h : s.afterReads a.toNat 0 = s := by simp [State.afterReads, State.readEvents]
  rw [State.reading, h]
  rfl

/-- One byte read more: the byte joins `buf`. -/
theorem reading_succ (pos n : Nat) :
    s.reading a b (pos + 1) (n + 1) = ((s.reading a b pos n).log (s.readEvent (a.toNat + n))).goto (readRun s a b pos n)
      .byteRead { (readRun s a b pos n).regs with buf := s.bytesFrom a.toNat n ++ [s.byteAt (a.toNat + n)] } := by
  rw [State.reading, ← log_afterReads, readRun, bytesFrom_succ]
  rfl

/-- The byte read number `n + 1` of READ. -/
theorem turn_reading (hop : s.op = .none) (hlive : s.live = true) (pos : Nat) {n : Nat}
    (hin : a.toNat + n < s.cfg.arraySize) :
    sequencerTurn (fsmTurn (s.reading a b pos n)) =
      if n + 1 < b.toNat then s.reading a b (pos + 1) (n + 1)
      else (s.afterReads a.toNat (n + 1)).respond .ok b (s.bytesFrom a.toNat (n + 1)) := by
  have hlen : (readRun s a b pos n).regs.buf.length = n := bytesFrom_length _ _
  have ho : (readRun s a b pos n).regs.a.toNat + (readRun s a b pos n).regs.buf.length = a.toNat + n :=
    congrArg (a.toNat + ·) hlen
  have hboundary : sequencerTurn (fsmTurn (s.reading a b pos n)) =
      stepByteRead (readRun s a b pos n) (s.reading a b pos n) :=
    boundary_withRun (readRun s a b pos n) (s := s.afterReads a.toNat n) hop
  rw [hboundary, stepByteRead_of_no_op (s := s.reading a b pos n) hop hlive ho hin, hlen, reading_succ, bytesFrom_succ,
    ← log_afterReads]
  rfl

/-- READ comes to each of its byte reads. -/
theorem reaches_reading (hop : s.op = .none) (hlive : s.live = true) (hin : a.toNat + b.toNat ≤ s.cfg.arraySize)
    (pos : Nat) {n : Nat} (hn : n < b.toNat) : Reaches n (s.reading a b pos 0) (s.reading a b (pos + n) n) := by
  induction n with
  | zero => exact .refl _
  | succ n ih =>
    have hturn := turn_reading (a := a) (b := b) hop hlive (pos + n) (n := n) (by omega)
    rw [if_pos hn] at hturn
    exact (ih (by omega)).trans (reaches_of_turn hturn hlive)

/-- With the capacity cached, READ's first step is its first byte read. -/
theorem stepDiscover_startRun_read (hop : s.op = .none) (hlive : s.live = true) (hcache : s.chipSizeCache ≠ 0)
    (hchecked : readChecks s.chipSizeCache a b true = .byteReads) (hin : a.toNat < s.cfg.arraySize) :
    stepDiscover (startRun (.read a b true) 0 .first) (s.accept (.read a b true)) =
      sequencerStep (startRun (.read a b true) 0 .byteRead) (s.withRun (startRun (.read a b true) 0 .byteRead)) := by
  have hread (phase : Phase) := stepByteRead_of_no_op (r := startRun (.read a b true) 0 phase)
    (s := s.withRun (startRun (.read a b true) 0 phase)) hop hlive rfl (by exact hin)
  calc stepDiscover (startRun (.read a b true) 0 .first) (s.accept (.read a b true))
    _ = stepByteRead (startRun (.read a b true) 0 .first) (s.withRun (startRun (.read a b true) 0 .first)) :=
      stepDiscover_of_byteReads (s := s.accept (.read a b true)) hcache hchecked
    _ = stepByteRead (startRun (.read a b true) 0 .byteRead) (s.withRun (startRun (.read a b true) 0 .byteRead)) :=
      (hread .first).trans (hread .byteRead).symm

/-- READ of a span inside the array, with no operation in flight, copies the stored bytes (R230). -/
theorem exec_read_of_quiet (hs : Quiet s) (hcache : s.cacheOk = true) (hb : b.toNat ≠ 0)
    (hin : a.toNat + b.toNat ≤ s.cfg.arraySize) :
    exec (.read a b true) s =
      .next ((s.discovered.afterReads a.toNat b.toNat).respond .ok b (s.bytesFrom a.toNat b.toNat)) := by
  obtain ⟨⟨hlive, -⟩, hop⟩ := id hs
  have hchecked : readChecks s.discovered.chipSizeCache a b true = .byteReads := by
    have hne : b ≠ 0 := fun h => hb (by simp [h])
    rw [readChecks, discovered_chipSizeCache_toNat hcache, inRange_of_le hb hin, if_pos rfl, if_neg hne]
    rfl
  obtain ⟨pos, hstart⟩ := reaches_discovered (c := .read a b true) hop hlive rfl (.inr ⟨hchecked, rfl⟩)
    fun h => stepDiscover_startRun_read hop hlive h (discovered_of_cached h ▸ hchecked) (by omega)
  obtain ⟨cache, es, hdiscovered⟩ := exists_discovered_eq s
  have hop' : s.discovered.op = .none := by rw [hdiscovered]; exact hop
  have hlive' : s.discovered.live = true := by rw [hdiscovered]; exact hlive
  have hin' : a.toNat + b.toNat ≤ s.discovered.cfg.arraySize := by rw [hdiscovered]; exact hin
  have hbytes : s.discovered.bytesFrom a.toNat b.toNat = s.bytesFrom a.toNat b.toNat := by rw [hdiscovered]; rfl
  have hreads := reaches_reading hop' hlive' hin' pos (n := b.toNat - 1) (by omega)
  have hlast := turn_reading (a := a) (b := b) hop' hlive' (pos + (b.toNat - 1)) (n := b.toNat - 1) (by omega)
  rw [Nat.sub_add_cancel (by omega), if_neg (lt_irrefl _), hbytes] at hlast
  rw [← reading_zero] at hstart
  exact (hstart.trans hreads).exec_eq rfl hs (by simp only [commandBound]; omega) hlast rfl hlive'

end

end Sys2Proof.Machine
end

section
/-! SUPPORT. The register images and the transactions of a WRITE on an unlocked block (30_encoding.md R101, R102, R111,
40_register_bus.md R133 to R138, R150, R151). -/

namespace Sys2Proof.Machine

/-! ### The images of SR and CR -/

/-- The all-ones clear pattern clears every status flag (R101, R133). -/
@[simp] theorem clearFlags_srClear (f : BitVec 11) : clearFlags f srClear = 0 := by
  have h : flagsOfWord srClear = BitVec.allOnes 11 := by decide
  simp [clearFlags, h]

@[simp] theorem maskIf_getElem (b : Bool) (mask : Word) (i : Nat) (h : i < 32) : (maskIf b mask)[i] = (b && mask[i]) := by
  cases b <;> simp [maskIf]

section
variable (s : State)

/-- SR shows an operation in flight in bit 16 (R35, R101). -/
@[simp] theorem srWord_bsy : s.srWord[16] = s.bsy := by simp [State.srWord, wordOfFlags, srBsy]

/-- CR shows PG in bit 0 (R37, R102). -/
@[simp] theorem crWord_pg : s.crWord[0] = s.pg := by simp [State.crWord, crLock, crStrt, crPer, crPg]

/-- CR shows PER in bit 1 (R38, R102). -/
@[simp] theorem crWord_per : s.crWord[1] = s.per := by simp [State.crWord, crLock, crStrt, crPer, crPg]

/-- CR shows an erase in flight in bit 16 (R40, R102). -/
@[simp] theorem crWord_strt : s.crWord[16] = s.strt := by simp [State.crWord, crLock, crStrt, crPer, crPg]

/-- CR shows LOCK in bit 31 (R41, R102). -/
@[simp] theorem crWord_lock : s.crWord[31] = s.lock := by simp [State.crWord, crLock, crStrt, crPer, crPg]

/-- CR shows PNB in bits 3 to 8 (R39, R102). -/
@[simp] theorem crPageIndex_crWord : crPageIndex s.crWord = s.pnb := by
  ext i hi
  interval_cases i <;> simp [crPageIndex, State.crWord, crLock, crStrt, crPer, crPg]

end

/-- CR_PG is bit 0 alone (R102). -/
@[simp] theorem crPg_getElem (i : Nat) (h : i < 32) : crPg[i] = decide (i = 0) := BitVec.getElem_one h

@[simp] theorem crPageIndex_or_crPg (v : Word) : crPageIndex (v ||| crPg) = crPageIndex v := by
  ext i hi
  interval_cases i <;> simp [crPageIndex]

@[simp] theorem crPageIndex_and_not_crPg (v : Word) : crPageIndex (v &&& ~~~ crPg) = crPageIndex v := by
  ext i hi
  interval_cases i <;> simp [crPageIndex]

/-! ### The transactions of a double-word -/

section
variable {s : State} {o : Nat}

/-- A CR write with bits 16 and 31 zero, unlocked and with no operation in flight, takes the fields and does nothing else
(R136). -/
theorem busCrWrite_of_plain {v : Word} (hlock : s.lock = false) (hop : s.op = .none) (hstrt : v[16] = false)
    (hv : v[31] = false) :
    busCrWrite v s = { s.logRegister true crOffset (some v) with
      pg := v[0], per := v[1], pnb := crPageIndex v, latch := if v[0] then s.latch else none } := by
  simp [busCrWrite, crWriteEffect, crWriteUnlocked, hlock, hstrt, setLockIf, hv, crFields, abortCheck, hop, Op.isErase,
    Op.isProgram]

/-- Writing back the CR image with PG set sets PG alone (R178, R220 step 2). -/
theorem busCrWrite_setPg (hlock : s.lock = false) (hop : s.op = .none) :
    busCrWrite (s.crWord ||| crPg) s =
      { s.logRegister true crOffset (some (s.crWord ||| crPg)) with pg := true } := by
  rw [busCrWrite_of_plain hlock hop (by simp [State.strt, hop, Op.isErase]) (by simp [hlock])]
  simp

/-- Writing back the CR image with PG clear clears PG, and the latch with it (R136, R178). -/
theorem busCrWrite_clearPg (hlock : s.lock = false) (hop : s.op = .none) :
    busCrWrite (s.crWord &&& ~~~ crPg) s =
      { s.logRegister true crOffset (some (s.crWord &&& ~~~ crPg)) with pg := false, latch := none } := by
  rw [busCrWrite_of_plain hlock hop (by simp [State.strt, hop, Op.isErase]) (by simp [hlock])]
  simp

/-- The low word of a double-word is latched (R150). -/
theorem busArrayWrite_lowWord (w : Word) (hlock : s.lock = false) (hop : s.op = .none) (hpg : s.pg = true) (ho : o % 8 = 0)
    (hin : o + 8 ≤ s.cfg.arraySize) :
    busArrayWrite o w s = { s.logArrayWrite o w with latch := some ⟨o, w⟩ } := by
  have hrange : ¬(o % 4 ≠ 0 ∨ o + 4 > s.cfg.arraySize) := by omega
  simp [busArrayWrite, arrayWriteEffect, hrange, hpg, hlock, hop, ho]

/-- The high word starts the program of its double-word (R140, R151). -/
theorem busArrayWrite_highWord (lo hi : Word) (hlock : s.lock = false) (hop : s.op = .none) (hpg : s.pg = true)
    (hflags : s.flags = 0) (hlatch : s.latch = some ⟨o, lo⟩) (ho : o % 8 = 0) (hin : o + 8 ≤ s.cfg.arraySize) :
    busArrayWrite (o + 4) hi s =
      { s.logArrayWrite (o + 4) hi with op := .program o lo hi, aborted := false, latch := none } := by
  have hrange : ¬((o + 4) % 4 ≠ 0 ∨ o + 4 + 4 > s.cfg.arraySize) := by omega
  have hhigh : (o + 4) % 8 ≠ 0 := by omega
  have heffect : busArrayWrite (o + 4) hi s = highWordWrite (o + 4) hi (s.logArrayWrite (o + 4) hi) := by
    simp only [busArrayWrite, arrayWriteEffect, State.logArrayWrite_cfg, if_neg hrange, if_neg hhigh]
    simp [hpg, hlock, hop]
  rw [heffect]
  simp [highWordWrite, hlatch, startProgram, State.startDraw, hflags, State.afterStartDraw, State.begin]

end

/-! ### The words of a double-word and their bytes -/

/-- A word's bytes are those it was assembled from (R73, R111). -/
theorem bytesOfWord_wordOfBytes (b0 b1 b2 b3 : Byte) : bytesOfWord (wordOfBytes b0 b1 b2 b3) = [b0, b1, b2, b3] := by
  simp only [bytesOfWord, wordOfBytes, List.cons.injEq, and_true]
  refine ⟨?_, ?_, ?_, ?_⟩
  all_goals
    ext i hi
    interval_cases i <;> simp

/-- The two words of eight bytes lie in the array as those bytes (R157). -/
theorem bytesOfWord_wordAt_append {bytes : List Byte} (h : bytes.length = 8) :
    bytesOfWord (wordAt bytes 0) ++ bytesOfWord (wordAt bytes 4) = bytes := by
  simp only [wordAt, bytesOfWord_wordOfBytes]
  apply List.ext_getElem
  · simp [h]
  · intro i hi hi'
    rw [h] at hi'
    interval_cases i <;> simp [List.getD_eq_getElem?_getD, h]

end Sys2Proof.Machine
end

section
/-! SUPPORT. The steps of one double-word of WRITE on an unlocked block, each exactly (44_write.md R220, 41_sequencer.md R177,
R178). -/

namespace Sys2Proof.Machine

/-! ### WRITE at a boundary -/

/-- The run and `HISTORY` replaced: they tell how far a command has come, and no operation of the block reads them. -/
def State.withTrace (r : Run) (es : List Event) (s : State) : State := { s with seq := .running r, history := es }

/-- The run of WRITE. -/
def writeRun (a : Word) (d : List Byte) (pos : Nat) (phase : Phase) (g : Regs) : Run := ⟨.write a (some d), pos, phase, g⟩

/-- WRITE before the transaction that `phase` names. -/
def State.writing (a : Word) (d : List Byte) (pos : Nat) (phase : Phase) (g : Regs) (es : List Event) (s : State) : State :=
  s.withTrace (writeRun a d pos phase g) es

/-- The `HISTORY` entry of a register transaction. -/
def registerEvent (write : Bool) (offset : BitVec 26) (v : Word) : Event :=
  .bus (registerDescriptor write offset) offset.toNat (some v)

/-- The `HISTORY` entry of an array write. -/
def arrayWriteEvent (o : Nat) (w : Word) : Event :=
  .bus (descriptor true spaceArray widthWord (BitVec.ofNat 26 o)) o (some w)

section
variable {s t : State} {a : Word} {d : List Byte} {u k o pos pos' : Nat} {phase phase' : Phase} {g g' : Regs}
  {es es' : List Event}

theorem boundary_writing (hop : s.op = .none) :
    sequencerTurn (fsmTurn (s.writing a d pos phase g es)) = sequencerTurn (s.writing a d pos phase g es) := by
  rw [fsmTurn_of_no_op (s := s.writing a d pos phase g es) hop]

/-- With no operation in flight, a step of WRITE after which it goes on. -/
theorem reaches_of_step (hop : s.op = .none)
    (hstep : sequencerTurn (s.writing a d pos phase g es) = t.writing a d pos' phase' g' es') (hlive : t.live = true) :
    Reaches 1 (s.writing a d pos phase g es) (t.writing a d pos' phase' g' es') :=
  reaches_of_turn ((boundary_writing hop).trans hstep) hlive

/-! ### The start of the program -/

/-- Drawn bytes depend on the draws alone. -/
theorem drawBytes_congr (hdraws : ∀ k, s.drawAt k = t.drawAt k) (k n : Nat) : s.drawBytes k n = t.drawBytes k n := by
  induction n generalizing k with
  | zero => rfl
  | succ n ih => simp only [State.drawBytes, hdraws, ih]

theorem assembleWords_withTrace (r : Run) : assembleWords d u g (s.withTrace r es) = assembleWords d u g s := by
  have hdraws : (s.withTrace r es).drawBytes 0 (padCount d u) = s.drawBytes 0 (padCount d u) :=
    drawBytes_congr (s := s.withTrace r es) (t := s) (fun _ => rfl) 0 _
  simp only [assembleWords, State.doubleWordBytes, hdraws]

/-- Before double-word `u` its words are assembled and the flags cleared (R220 steps 1 and 2). -/
theorem turn_clearBefore :
    sequencerTurn (s.writing a d pos (.clearBefore u) g es) =
      { s.afterDraws (padCount d u) with flags := 0 }.writing a d (pos + 1) .modeRead (assembleWords d u g s)
        (es ++ [registerEvent true srOffset srClear]) := by
  change stepClearBefore u (writeRun a d pos (.clearBefore u) g) (s.withTrace _ es) = _
  simp only [stepClearBefore, writeRun, busSrWrite, clearFlags_srClear, assembleWords_withTrace]
  rfl

theorem turn_modeRead :
    sequencerTurn (s.writing a d pos .modeRead g es) =
      s.writing a d (pos + 1) .modeWrite { g with c := s.crWord } (es ++ [registerEvent false crOffset s.crWord]) := rfl

/-- WRITE sets PG (R220 step 2). -/
theorem turn_modeWrite (hlive : s.live = true) (hlock : s.lock = false) (hop : s.op = .none) (hc : g.c = s.crWord) :
    sequencerTurn (s.writing a d pos .modeWrite g es) =
      { s with pg := true }.writing a d (pos + 1) .lowWord g
        (es ++ [registerEvent true crOffset (s.crWord ||| crPg)]) := by
  have hwrite : busCrWrite (g.c ||| crPg) (s.writing a d pos .modeWrite g es) = _ :=
    (congrArg (busCrWrite · _) (congrArg (· ||| crPg) hc)).trans (busCrWrite_setPg hlock hop)
  exact (congrArg (State.andThen · _) hwrite).trans (andThen_of_live hlive)

/-- WRITE latches the low word (R220 step 3). -/
theorem turn_lowWord (hlive : s.live = true) (hlock : s.lock = false) (hop : s.op = .none) (hpg : s.pg = true)
    (ho : doubleWordOffset g = o) (haligned : o % 8 = 0) (hin : o + 8 ≤ s.cfg.arraySize) :
    sequencerTurn (s.writing a d pos .lowWord g es) =
      { s with latch := some ⟨o, g.lo⟩ }.writing a d (pos + 1) .highWord g (es ++ [arrayWriteEvent o g.lo]) := by
  subst ho
  have hwrite := busArrayWrite_lowWord (s := s.writing a d pos .lowWord g es) g.lo hlock hop hpg haligned hin
  exact (congrArg (State.andThen · _) hwrite).trans (andThen_of_live hlive)

/-- WRITE sends the high word, which starts the program, and goes to the poll (R220 steps 3 and 4). -/
theorem turn_highWord (hlive : s.live = true) (hlock : s.lock = false) (hop : s.op = .none) (hpg : s.pg = true)
    (hflags : s.flags = 0) (hlatch : s.latch = some ⟨o, g.lo⟩) (hbudget : s.cfg.progTimeout ≠ 0)
    (ho : doubleWordOffset g = o) (haligned : o % 8 = 0) (hin : o + 8 ≤ s.cfg.arraySize) :
    sequencerTurn (s.writing a d pos .highWord g es) =
      { s with op := .program o g.lo g.hi, aborted := false, latch := none }.writing a d (pos + 1) (.poll 1) g
        (es ++ [arrayWriteEvent (o + 4) g.hi]) := by
  subst ho
  have hwrite := busArrayWrite_highWord (s := s.writing a d pos .highWord g es) g.lo g.hi hlock hop hpg hflags hlatch
    haligned hin
  refine (congrArg (State.andThen · _) hwrite).trans ((andThen_of_live (by exact hlive)).trans ?_)
  exact if_neg hbudget

/-! ### The poll -/

/-- A poll read of a busy block within the budget: the next one follows (R177). -/
theorem turn_poll_of_busy (hbusy : s.bsy = true) (hk : k < s.cfg.progTimeout.toNat) :
    sequencerTurn (s.writing a d pos (.poll k) g es) =
      s.writing a d (pos + 1) (.poll (k + 1)) { g with k := BitVec.ofNat 32 k, s := s.srWord }
        (es ++ [registerEvent false srOffset s.srWord]) :=
  if_pos ⟨hbusy, hk⟩

/-- A poll read of a block that is not busy: the poll is done (R177). -/
theorem turn_poll_of_idle (hidle : s.bsy = false) :
    sequencerTurn (s.writing a d pos (.poll k) g es) =
      s.writing a d (pos + 1) .clearAfter { g with k := BitVec.ofNat 32 k, s := s.srWord }
        (es ++ [registerEvent false srOffset s.srWord]) :=
  if_neg fun hbusy => Bool.false_ne_true (hidle.symm.trans hbusy.left)

/-- The poll of a WRITE has not expired when its last SR read showed BSY = 0. -/
theorem pollExpired_of_done {c : Config} (hbudget : c.progTimeout ≠ 0) (hs : g.s[16] = false) :
    pollExpired c (writeRun a d pos .clearAfter g) = false :=
  Bool.or_eq_false_iff.mpr ⟨decide_eq_false hbudget, hs⟩

/-! ### The cleanup -/

theorem turn_clearAfter (hpoll : pollExpired s.cfg (writeRun a d pos .clearAfter g) = false) :
    sequencerTurn (s.writing a d pos .clearAfter g es) =
      { s with flags := 0 }.writing a d (pos + 1) .cleanupRead { g with r := false }
        (es ++ [registerEvent true srOffset srClear]) := by
  have hcfg : (s.withTrace (writeRun a d pos .clearAfter g) es).cfg = s.cfg := rfl
  change stepClearAfter (writeRun a d pos .clearAfter g) (s.withTrace _ es) = _
  rw [stepClearAfter, hcfg, hpoll, busSrWrite, clearFlags_srClear]
  rfl

theorem turn_cleanupRead :
    sequencerTurn (s.writing a d pos .cleanupRead g es) =
      s.writing a d (pos + 1) .cleanupWrite { g with c := s.crWord } (es ++ [registerEvent false crOffset s.crWord]) := rfl

/-- The cleanup clears PG, and the command goes on to its next double-word or responds (R220 steps 5 and 6). -/
theorem turn_cleanupWrite (hlive : s.live = true) (hlock : s.lock = false) (hop : s.op = .none) (hc : g.c = s.crWord) :
    sequencerTurn (s.writing a d pos .cleanupWrite g es) =
      nextUnit (writeRun a d pos .cleanupWrite g)
        ({ s with pg := false, latch := none }.writing a d pos .cleanupWrite g
          (es ++ [registerEvent true crOffset (s.crWord &&& ~~~ crPg)])) := by
  have hwrite : busCrWrite (g.c &&& ~~~ crPg) (s.writing a d pos .cleanupWrite g es) = _ :=
    (congrArg (busCrWrite · _) (congrArg (· &&& ~~~ crPg) hc)).trans (busCrWrite_clearPg hlock hop)
  exact (congrArg (State.andThen · _) hwrite).trans (andThen_of_live hlive)

theorem nextUnit_goesOn (hr : g.r = false) (hu : g.u.toNat = u) (hmore : u + 1 < doubleWords d.length) :
    nextUnit (writeRun a d pos .cleanupWrite g) (s.writing a d pos .cleanupWrite g es) =
      s.writing a d (pos + 1) (.clearBefore (u + 1)) g es := by
  subst hu
  simp only [nextUnit, writeRun, hr]
  exact if_pos hmore

theorem nextUnit_ends (hr : g.r = false) (hu : g.u.toNat = u) (hlast : u + 1 = doubleWords d.length) :
    nextUnit (writeRun a d pos .cleanupWrite g) (s.writing a d pos .cleanupWrite g es) =
      (s.writing a d pos .cleanupWrite g es).respond .ok (BitVec.ofNat 32 (8 * doubleWords d.length)) [] := by
  have hend : ¬ g.u.toNat + 1 < doubleWords d.length := by omega
  simp only [nextUnit, writeRun, hr]
  exact if_neg hend

end

end Sys2Proof.Machine
end

section
/-! SUPPORT. A whole double-word of WRITE, from its status clear to the end of its cleanup (44_write.md R220,
40_register_bus.md R155). -/

namespace Sys2Proof.Machine

/-! ### The completion step -/

section
variable (s : State)

@[simp] theorem completesAfter_zero (k : Nat) : s.completesAfter k 0 = drawBit (s.drawAt k) := by
  simp [State.completesAfter, State.waitsFor]

/-- A completion step that waits does not come at this boundary. -/
theorem completesAfter_succ (k n : Nat) :
    s.completesAfter k (n + 1) = (!drawBit (s.drawAt k) && s.completesAfter (k + 1) n) := by
  have hshift (i : Nat) : k + 1 + i = k + (i + 1) := by omega
  simp [State.completesAfter, State.waitsFor, List.range_succ_eq_map, List.all_map, Function.comp_def, hshift,
    Bool.and_assoc]

end

/-- A schedule depends on the draws alone. -/
theorem completesAfter_congr {s t : State} {n : Nat} (hdraws : ∀ k, t.drawAt k = s.drawAt (n + k)) (k w : Nat) :
    t.completesAfter k w = s.completesAfter (n + k) w := by
  simp [State.completesAfter, State.waitsFor, hdraws, Nat.add_assoc]

section
variable {s : State}

theorem fsmTurn_of_wait (hlive : s.live = true) (hop : s.op ≠ .none) (hdraw : drawBit (s.drawAt 0) = false) :
    fsmTurn s = s.afterDraws 1 := by
  simp [fsmTurn, hlive, hop, hdraw]

theorem fsmTurn_of_completion (hlive : s.live = true) (hop : s.op ≠ .none) (hdraw : drawBit (s.drawAt 0) = true) :
    fsmTurn s = fsmComplete (s.afterDraws 1) := by
  simp [fsmTurn, hlive, hop, hdraw]

theorem fsmComplete_op (s : State) : (fsmComplete s).op = .none := by
  unfold fsmComplete
  split
  · assumption
  · rfl
  · rfl

theorem fsmComplete_live (s : State) : (fsmComplete s).live = s.live :=
  live_congr (fsmComplete_fault s) (fsmComplete_refused s)

/-- The completion step reads neither the run nor `HISTORY` (R155). -/
theorem fsmComplete_withTrace {o : Nat} {lo hi : Word} (hop : s.op = .program o lo hi) (r : Run) (es : List Event) :
    fsmComplete (s.withTrace r es) = (fsmComplete s).withTrace r (es ++ [.completion s.op]) := by
  have hprogram : completeProgram o lo hi (s.withTrace r es) = (completeProgram o lo hi s).withTrace r es := by
    simp only [completeProgram, apply_ite (State.withTrace r es)]
    rfl
  have hop' : (s.withTrace r es).op = .program o lo hi := hop
  simp only [fsmComplete, hop, hop', hprogram]
  rfl

end

/-! ### A double-word -/

/-- The program of a double-word is in flight, armed by WRITE: the flags are clear, PG is set, the latch is taken (R220 steps 2
and 3). -/
def State.armed (o : Nat) (bytes : List Byte) (s : State) : State :=
  { s with flags := 0, pg := true, latch := none, op := .program o (wordAt bytes 0) (wordAt bytes 4), aborted := false }

/-- The block after a double-word of WRITE whose program completed after `n` draws: cleaned up, with nothing in flight (R220
step 5). -/
def State.afterUnit (o : Nat) (bytes : List Byte) (n : Nat) (s : State) : State :=
  { fsmComplete ((s.armed o bytes).afterDraws n) with flags := 0, pg := false, latch := none }

section
variable {s : State} {a : Word} {d : List Byte} {o u k w pos : Nat} {g : Regs} {es : List Event}

/-- WRITE takes a double-word from its status clear to the boundary before its first poll read (R220 steps 1 to 3). -/
theorem reaches_poll (hlive : s.live = true) (hlock : s.lock = false) (hop : s.op = .none)
    (hbudget : s.cfg.progTimeout ≠ 0) (hu : u < 2 ^ 32) (ho : g.a.toNat + 8 * u = o) (haligned : o % 8 = 0)
    (hin : o + 8 ≤ s.cfg.arraySize) :
    ∃ g' es', g'.a = g.a ∧ g'.u.toNat = u ∧
      Reaches 5 (s.writing a d pos (.clearBefore u) g es)
        (((s.armed o (s.doubleWordBytes d u)).afterDraws (padCount d u)).writing a d (pos + 5) (.poll 1) g' es') := by
  have hunit : (BitVec.ofNat 32 u).toNat = u := by simpa using hu
  let clear : State := { s.afterDraws (padCount d u) with flags := 0 }
  let g' : Regs := { assembleWords d u g s with c := clear.crWord }
  have ho' : doubleWordOffset g' = o := by simp [doubleWordOffset, g', assembleWords, hunit, ho]
  have hclear := reaches_of_step (pos := pos) (es := es) hop (turn_clearBefore (a := a) (d := d) (u := u) (g := g)) hlive
  have hmodeRead := hclear.trans (reaches_of_step (s := clear) hop turn_modeRead hlive)
  have hmodeWrite := hmodeRead.trans (reaches_of_step (s := clear) hop (turn_modeWrite hlive hlock hop rfl) hlive)
  have hlow := hmodeWrite.trans (reaches_of_step (s := { clear with pg := true }) hop
    (turn_lowWord hlive hlock hop rfl ho' haligned hin) hlive)
  have hhigh := hlow.trans (reaches_of_step (s := { clear with pg := true, latch := some ⟨o, g'.lo⟩ }) hop
    (turn_highWord hlive hlock hop rfl rfl rfl hbudget ho' haligned hin) hlive)
  exact ⟨g', _, rfl, hunit, hhigh⟩

/-- From its `k`-th read on, a poll that the completion step meets after `w` more boundaries, within the budget, is done with the
program completed (R155, R177). -/
theorem reaches_clearAfter {lo hi : Word} (hlive : s.live = true) (hop : s.op = .program o lo hi)
    (hk : k + w ≤ s.cfg.progTimeout.toNat) (hdraws : s.completesAfter 0 w = true) :
    ∃ pos' g' es', g'.a = g.a ∧ g'.u = g.u ∧ g'.s[16] = false ∧
      Reaches (w + 1) (s.writing a d pos (.poll k) g es)
        ((fsmComplete (s.afterDraws (w + 1))).writing a d pos' .clearAfter g' es') := by
  have hop' : s.op ≠ .none := by simp [hop]
  induction w generalizing s k pos g es with
  | zero =>
    have hdraw : drawBit (s.drawAt 0) = true := by simpa using hdraws
    have hturn : fsmTurn (s.writing a d pos (.poll k) g es) =
        (fsmComplete (s.afterDraws 1)).writing a d pos (.poll k) g (es ++ [.completion s.op]) :=
      (fsmTurn_of_completion (s := s.writing a d pos (.poll k) g es) hlive hop' hdraw).trans
        (fsmComplete_withTrace (s := s.afterDraws 1) hop _ _)
    have hidle : (fsmComplete (s.afterDraws 1)).bsy = false := by simp [State.bsy, fsmComplete_op]
    exact ⟨pos + 1, { g with k := BitVec.ofNat 32 k, s := (fsmComplete (s.afterDraws 1)).srWord }, _, rfl, rfl,
      (srWord_bsy _).trans hidle, reaches_of_turn ((congrArg sequencerTurn hturn).trans (turn_poll_of_idle hidle))
        ((fsmComplete_live _).trans hlive)⟩
  | succ w ih =>
    obtain ⟨hwait, hlater⟩ : drawBit (s.drawAt 0) = false ∧ s.completesAfter 1 w = true := by
      simpa [completesAfter_succ] using hdraws
    have hturn : fsmTurn (s.writing a d pos (.poll k) g es) = (s.afterDraws 1).writing a d pos (.poll k) g es :=
      fsmTurn_of_wait (s := s.writing a d pos (.poll k) g es) hlive hop' hwait
    have hbusy : s.bsy = true := by simp [State.bsy, hop]
    have hread : k < (s.afterDraws 1).cfg.progTimeout.toNat := by rw [State.afterDraws_cfg]; omega
    have hstep := reaches_of_turn ((congrArg sequencerTurn hturn).trans (turn_poll_of_busy hbusy hread)) hlive
    have hlater' : (s.afterDraws 1).completesAfter 0 w = true := by
      rw [completesAfter_congr (s := s) (n := 1) (drawAt_afterDraws s 1)]
      exact hlater
    obtain ⟨pos', g', es', ha, hu, hs, hreach⟩ := ih (s := s.afterDraws 1) (k := k + 1) (pos := pos + 1)
      (g := { g with k := BitVec.ofNat 32 k, s := (s.afterDraws 1).srWord })
      (es := es ++ [registerEvent false srOffset (s.afterDraws 1).srWord]) hlive hop
      (by rw [State.afterDraws_cfg]; omega) hlater' hop'
    rw [afterDraws_afterDraws, Nat.add_comm 1] at hreach
    exact ⟨pos', g', es', ha, hu, hs, (hstep.trans hreach).mono (by omega)⟩

/-- After a poll that is done, WRITE cleans up, and goes on to its next double-word or responds (R220 steps 5 and 6). -/
theorem reaches_cleanupWrite (hlive : s.live = true) (hlock : s.lock = false) (hop : s.op = .none)
    (hpoll : pollExpired s.cfg (writeRun a d pos .clearAfter g) = false) :
    ∃ pos' g' es' t, g'.a = g.a ∧ g'.u = g.u ∧ g'.r = false ∧ Reaches 2 (s.writing a d pos .clearAfter g es) t ∧
      sequencerTurn (fsmTurn t) = nextUnit (writeRun a d pos' .cleanupWrite g')
        ({ s with flags := 0, pg := false, latch := none }.writing a d pos' .cleanupWrite g' es') := by
  let clear : State := { s with flags := 0 }
  let g' : Regs := { g with r := false, c := clear.crWord }
  let es' := es ++ [registerEvent true srOffset srClear] ++ [registerEvent false crOffset clear.crWord]
  have hclear := reaches_of_step (es := es) hop (turn_clearAfter hpoll) hlive
  have hread := hclear.trans (reaches_of_step (s := clear) hop turn_cleanupRead hlive)
  have hwrite := turn_cleanupWrite (s := clear) (a := a) (d := d) (pos := pos + 2) (g := g') (es := es') hlive hlock hop rfl
  exact ⟨pos + 2, g', _, _, rfl, rfl, rfl, hread, (boundary_writing (s := clear) hop).trans hwrite⟩

/-- A double-word of WRITE whose program completes after `w` boundaries, within the budget, takes at most `w + 9` steps, and the
command goes on to the next double-word or responds (R220). -/
theorem reaches_nextUnit (hlive : s.live = true) (hlock : s.lock = false) (hop : s.op = .none) (hu : u < 2 ^ 32)
    (ho : g.a.toNat + 8 * u = o) (haligned : o % 8 = 0) (hin : o + 8 ≤ s.cfg.arraySize)
    (hw : w < s.cfg.progTimeout.toNat) (hdraws : s.completesAfter (padCount d u) w = true) :
    ∃ pos' g' es' t, g'.a = g.a ∧ g'.u.toNat = u ∧ g'.r = false ∧
      Reaches (w + 8) (s.writing a d pos (.clearBefore u) g es) t ∧
      sequencerTurn (fsmTurn t) = nextUnit (writeRun a d pos' .cleanupWrite g')
        ((s.afterUnit o (s.doubleWordBytes d u) (padCount d u + (w + 1))).writing a d pos' .cleanupWrite g' es') := by
  have hbudget : s.cfg.progTimeout ≠ 0 := fun hzero => by simp [hzero] at hw
  obtain ⟨g₁, es₁, ha₁, hu₁, hpoll⟩ := reaches_poll (a := a) (d := d) (pos := pos) (es := es) hlive hlock hop hbudget hu ho
    haligned hin
  let busy := (s.armed o (s.doubleWordBytes d u)).afterDraws (padCount d u)
  have hdraws' : busy.completesAfter 0 w = true := by
    rw [completesAfter_congr (drawAt_afterDraws (s.armed o (s.doubleWordBytes d u)) (padCount d u))]
    exact hdraws
  obtain ⟨pos₂, g₂, es₂, ha₂, hu₂, hs₂, hdone⟩ := reaches_clearAfter (a := a) (d := d) (k := 1) (pos := pos + 5) (g := g₁)
    (es := es₁) (s := busy) hlive rfl (by rw [Nat.add_comm]; exact hw) hdraws'
  let done := fsmComplete (busy.afterDraws (w + 1))
  have hcfg : done.cfg = s.cfg := fsmComplete_cfg _
  have hlive' : done.live = true := (fsmComplete_live _).trans hlive
  have hlock' : done.lock = false := (fsmComplete_lock _).trans hlock
  obtain ⟨pos₃, g₃, es₃, t, ha₃, hu₃, hr₃, hclean, hlast⟩ := reaches_cleanupWrite (es := es₂) hlive' hlock'
    (fsmComplete_op _) (pollExpired_of_done (hcfg ▸ hbudget) hs₂)
  refine ⟨pos₃, g₃, es₃, t, ?_, ?_, hr₃, ((hpoll.trans hdone).trans hclean).mono (by omega), ?_⟩
  · rw [ha₃, ha₂, ha₁]
  · rw [hu₃, hu₂, hu₁]
  · rw [hlast, State.afterUnit, ← afterDraws_afterDraws]

end

end Sys2Proof.Machine
end

section
/-! SUPPORT. What a double-word of WRITE does to erased bytes, and what it leaves unchanged (40_register_bus.md R157, R160,
44_write.md R220, R221). -/

namespace Sys2Proof.Machine

/-! ### Sizes -/

section
variable {c : Config}

theorem page_mod_eight (h : c.Admissible) : c.page % 8 = 0 := by
  simp only [Config.Admissible, Config.admissible, Bool.and_eq_true, decide_eq_true_eq] at h
  tauto

theorem flashBase_mod_eight (h : c.Admissible) : c.flashBase.toNat % 8 = 0 := by
  have hbase : c.flashBase.toNat % c.page = 0 := by
    simp only [Config.Admissible, Config.admissible, Bool.and_eq_true, decide_eq_true_eq] at h
    tauto
  exact Nat.mod_eq_zero_of_dvd ((Nat.dvd_of_mod_eq_zero (page_mod_eight h)).trans (Nat.dvd_of_mod_eq_zero hbase))

/-- A double-word lies in one page (R10). -/
theorem page_of_doubleWord (h : c.Admissible) {o x : Nat} (ho : o % 8 = 0) (hx : o ≤ x ∧ x < o + 8) :
    x / c.page = o / c.page := by
  obtain ⟨q, hq⟩ := Nat.dvd_of_mod_eq_zero (page_mod_eight h)
  have hword : x / 8 = o / 8 := by omega
  rw [hq, ← Nat.div_div_eq_div_mul, ← Nat.div_div_eq_div_mul, hword]

/-- The array's size fits a 26-bit offset, and so a word. -/
theorem arraySize_le : c.arraySize ≤ 65535 * 1024 := by
  have hfuse := c.fuseValue.isLt
  unfold Config.arraySize
  omega

/-- Double-words of data inside the array lie whole in the array, whose size is a multiple of 8. -/
theorem doubleWords_in_array {a n : Nat} (ha : a % 8 = 0) (hin : a + n ≤ c.arraySize) :
    a + 8 * doubleWords n ≤ c.arraySize := by
  unfold Config.arraySize doubleWords ceil8 at *
  omega

end

theorem doubleWords_covers (n : Nat) : n ≤ 8 * doubleWords n := by
  unfold doubleWords ceil8
  omega

theorem eight_mul_doubleWords (n : Nat) : 8 * doubleWords n = ceil8 n := by
  unfold doubleWords ceil8
  omega

/-! ### The bytes of a double-word -/

/-- Byte `i` of what WRITE programs from the draws of `s`, each double-word `j` waiting `waits j` boundaries: a data byte, or
after the data a pad byte, which is a draw (R221). -/
def State.writtenByte (s : State) (d : List Byte) (waits : Nat → Nat) (i : Nat) : Byte :=
  if i < d.length then d.getD i 0 else drawByte (s.drawAt (unitDraw waits (d.length / 8) + (i - d.length)))

section
variable {s t : State} {d : List Byte} {waits : Nat → Nat} {u : Nat}

theorem dataChunk_length : (dataChunk d u).length = min 8 (d.length - 8 * u) := by simp [dataChunk]

/-- Only the last double-word has pad bytes. -/
theorem padCount_of_not_last (h : u + 1 < doubleWords d.length) : padCount d u = 0 := by
  simp only [padCount, dataChunk_length, doubleWords, ceil8] at *
  omega

@[simp] theorem doubleWordBytes_length : (t.doubleWordBytes d u).length = 8 := by
  simp only [State.doubleWordBytes, List.length_append, drawBytes_length, padCount, dataChunk_length]
  omega

/-- The bytes of double-word `u`, if its pad bytes are the draws from `unitDraw waits u` on. -/
theorem doubleWordBytes_getD (hu : u < doubleWords d.length) (hdraws : ∀ k, t.drawAt k = s.drawAt (unitDraw waits u + k))
    {i : Nat} (hi : i < 8) : (t.doubleWordBytes d u).getD i 0 = s.writtenByte d waits (8 * u + i) := by
  have hlen := dataChunk_length (d := d) (u := u)
  unfold State.doubleWordBytes State.writtenByte
  by_cases hdata : 8 * u + i < d.length
  · rw [if_pos hdata, List.getD_append _ _ _ _ (by omega)]
    simp [dataChunk, List.getD_eq_getElem?_getD, hi]
  · have hunit : d.length / 8 = u := by
      unfold doubleWords ceil8 at hu
      omega
    have hpad : i - (dataChunk d u).length < padCount d u := by
      unfold padCount
      omega
    rw [if_neg hdata, List.getD_append_right _ _ _ _ (by omega), drawBytes_getD _ _ _ _ hpad, hdraws, hunit]
    congr 3
    omega

end

/-! ### The completion of a double-word -/

/-- What WRITE neither changes while it runs nor leaves changed. -/
def State.kept (s : State) :=
  (s.cfg, s.per, s.pnb, s.lock, s.keyStage, s.chipSizeCache, s.requests, s.busProbe, s.fault, s.refused)

theorem kept_eq_iff {s t : State} :
    t.kept = s.kept ↔ t.cfg = s.cfg ∧ t.per = s.per ∧ t.pnb = s.pnb ∧ t.lock = s.lock ∧ t.keyStage = s.keyStage ∧
      t.chipSizeCache = s.chipSizeCache ∧ t.requests = s.requests ∧ t.busProbe = s.busProbe ∧ t.fault = s.fault ∧
      t.refused = s.refused := by
  simp [State.kept]

/-- WRITE leaves no status flag, PG clear, the latch empty, and nothing marked as aborted (R161, R220 step 5). -/
def State.cleaned (s : State) : Prop := s.flags = 0 ∧ s.pg = false ∧ s.latch = none ∧ s.aborted = false

section
variable {s : State} {o n : Nat} {bytes : List Byte}

theorem afterUnit_kept : (s.afterUnit o bytes n).kept = s.kept := by
  simp [State.kept, State.afterUnit, State.armed]

theorem afterUnit_cfg : (s.afterUnit o bytes n).cfg = s.cfg := fsmComplete_cfg _

theorem afterUnit_op : (s.afterUnit o bytes n).op = .none := fsmComplete_op _

theorem afterUnit_cleaned : (s.afterUnit o bytes n).cleaned := ⟨rfl, rfl, rfl, rfl⟩

theorem erasedAt_iff : s.erasedAt o = true ↔ ∀ i < 8, s.byteAt (o + i) = s.cfg.erasedByte := by
  simp [State.erasedAt]

/-- A program that was not aborted stores its words over erased bytes, unless the page is protected (R157, R160). -/
theorem completeProgram_of_erased {lo hi : Word} (haborted : s.aborted = false) (herased : s.erasedAt o = true) :
    completeProgram o lo hi s =
      if s.cfg.wrpPages.contains (o / s.cfg.page) then s else s.putBytes o (bytesOfWord lo ++ bytesOfWord hi) := by
  rw [completeProgram, haborted, herased]
  rfl

/-- The completion step of a WRITE's double-word over erased bytes. -/
theorem fsmComplete_armed (hlen : bytes.length = 8) (herased : s.erasedAt o = true) :
    fsmComplete ((s.armed o bytes).afterDraws n) = finishOp (.program o (wordAt bytes 0) (wordAt bytes 4))
      (if s.cfg.wrpPages.contains (o / s.cfg.page) then (s.armed o bytes).afterDraws n
        else ((s.armed o bytes).afterDraws n).putBytes o bytes) := by
  have hprogram := completeProgram_of_erased (s := (s.armed o bytes).afterDraws n) (lo := wordAt bytes 0)
    (hi := wordAt bytes 4) rfl herased
  rw [bytesOfWord_wordAt_append hlen] at hprogram
  exact congrArg (finishOp _) hprogram

theorem afterUnit_array (hlen : bytes.length = 8) (herased : s.erasedAt o = true) :
    (s.afterUnit o bytes n).array =
      if s.cfg.wrpPages.contains (o / s.cfg.page) then s.array else (s.putBytes o bytes).array := by
  simp only [State.afterUnit, fsmComplete_armed hlen herased]
  split <;> rfl

/-- The flags of the completion step take the one draw after those of its boundaries. -/
theorem afterUnit_drawAt (hlen : bytes.length = 8) (herased : s.erasedAt o = true) (k : Nat) :
    (s.afterUnit o bytes n).drawAt k = s.drawAt (n + 1 + k) := by
  have hdraws : ((s.afterDraws n).afterDraws 1).drawAt k = s.drawAt (n + 1 + k) := by
    rw [afterDraws_afterDraws, drawAt_afterDraws]
  rw [← hdraws, State.afterUnit, fsmComplete_armed hlen herased]
  split <;> rfl

theorem afterUnit_memoryOk (hmem : s.memoryOk = true) (hlen : bytes.length = 8) (herased : s.erasedAt o = true)
    (hin : o + 8 ≤ s.cfg.arraySize) : (s.afterUnit o bytes n).memoryOk = true := by
  have hput := putBytes_memoryOk s o bytes hmem (hlen ▸ hin)
  simp only [State.memoryOk, afterUnit_cfg, afterUnit_array hlen herased] at hmem hput ⊢
  split
  · exact hmem
  · exact hput

/-- After a double-word over erased bytes its bytes are stored, unless its page is protected, and every other byte is as
before. -/
theorem afterUnit_byteAt (hmem : s.memoryOk = true) (hlen : bytes.length = 8) (herased : s.erasedAt o = true) (x : Nat) :
    (s.afterUnit o bytes n).byteAt x =
      if (o ≤ x ∧ x < o + 8) ∧ o / s.cfg.page ∉ s.cfg.wrpPages then bytes.getD (x - o) 0 else s.byteAt x := by
  have hput := byteAt_putBytes s o bytes x hmem
  simp only [State.byteAt, afterUnit_cfg, afterUnit_array hlen herased] at hput ⊢
  by_cases hprotected : o / s.cfg.page ∈ s.cfg.wrpPages
  · simp [hprotected]
  · simpa [hprotected, hlen] using hput

end

end Sys2Proof.Machine
end

section
/-! SUPPORT. A whole WRITE over erased bytes, double-word after double-word (44_write.md R220, R221). -/

namespace Sys2Proof.Machine

/-! ### What lies in the array after some double-words -/

/-- After `j` double-words of a WRITE of `d` at `a` that began in `s`: nothing is in flight, their bytes lie in the array where no
page is protected, and every other byte is as it was (R74, R157, R160). -/
structure Programmed (s : State) (a : Nat) (d : List Byte) (waits : Nat → Nat) (j : Nat) (t : State) : Prop where
  kept : t.kept = s.kept
  op : t.op = .none
  memory : t.memoryOk = true
  bytes : ∀ x, t.byteAt x =
    if (a ≤ x ∧ x < a + 8 * j) ∧ x / s.cfg.page ∉ s.cfg.wrpPages then s.writtenByte d waits (x - a) else s.byteAt x

section
variable {s t : State} {a : Nat} {d : List Byte} {waits : Nat → Nat} {j n : Nat}

theorem programmed_zero (hop : s.op = .none) (hmem : s.memoryOk = true) : Programmed s a d waits 0 s where
  kept := rfl
  op := hop
  memory := hmem
  bytes x := by rw [if_neg (by omega)]

theorem Programmed.cfg (h : Programmed s a d waits j t) : t.cfg = s.cfg := by
  obtain ⟨hcfg, -⟩ := kept_eq_iff.mp h.kept
  exact hcfg

theorem Programmed.lock (h : Programmed s a d waits j t) : t.lock = s.lock := by
  obtain ⟨-, -, -, hlock, -⟩ := kept_eq_iff.mp h.kept
  exact hlock

theorem Programmed.live (h : Programmed s a d waits j t) : t.live = s.live := by
  obtain ⟨-, -, -, -, -, -, -, -, hfault, hrefused⟩ := kept_eq_iff.mp h.kept
  exact live_congr hfault hrefused

/-- The next double-word is still erased. -/
theorem Programmed.erasedAt (h : Programmed s a d waits j t) (hj : j < doubleWords d.length)
    (herased : ∀ i < 8 * doubleWords d.length, s.byteAt (a + i) = s.cfg.erasedByte) : t.erasedAt (a + 8 * j) = true := by
  rw [erasedAt_iff, h.cfg]
  intro i hi
  rw [h.bytes, if_neg (by omega), Nat.add_assoc]
  exact herased _ (by omega)

/-- The next double-word is programmed. -/
theorem Programmed.succ (h : Programmed s a d waits j t) (hcfg : s.cfg.Admissible) (ha : a % 8 = 0)
    (hin : a + d.length ≤ s.cfg.arraySize) (hj : j < doubleWords d.length) (herased : t.erasedAt (a + 8 * j) = true)
    (hdraws : ∀ k, t.drawAt k = s.drawAt (unitDraw waits j + k)) :
    Programmed s a d waits (j + 1) (t.afterUnit (a + 8 * j) (t.doubleWordBytes d j) n) := by
  have hrange : a + 8 * j + 8 ≤ t.cfg.arraySize := by
    have := doubleWords_in_array ha hin
    rw [h.cfg]
    omega
  refine ⟨afterUnit_kept.trans h.kept, afterUnit_op, afterUnit_memoryOk h.memory doubleWordBytes_length herased hrange,
    fun x => ?_⟩
  rw [afterUnit_byteAt h.memory doubleWordBytes_length herased, h.cfg, h.bytes]
  by_cases hx : a + 8 * j ≤ x ∧ x < a + 8 * j + 8
  · rw [page_of_doubleWord hcfg (by omega) hx]
    by_cases hprotected : (a + 8 * j) / s.cfg.page ∈ s.cfg.wrpPages
    · simp only [hprotected, not_true_eq_false, and_false, if_false]
    · rw [if_pos ⟨hx, hprotected⟩, if_pos ⟨by omega, hprotected⟩, doubleWordBytes_getD hj hdraws (by omega)]
      congr 1
      omega
  · have hsame : (a ≤ x ∧ x < a + 8 * (j + 1)) ↔ (a ≤ x ∧ x < a + 8 * j) := by omega
    simp only [hx, hsame, false_and, if_false]

end

/-! ### The run of WRITE -/

/-- The premises of a WRITE over erased bytes, where its first double-word begins: an unlocked block with nothing in flight, an
aligned span inside the array, and each completion step within the budget (R220, D29). -/
structure WritePremises (s : State) (a : Word) (d : List Byte) (waits : Nat → Nat) : Prop where
  admissible : s.cfg.Admissible
  memory : s.memoryOk = true
  live : s.live = true
  unlocked : s.lock = false
  op : s.op = .none
  aligned : a.toNat % 8 = 0
  inArray : a.toNat + d.length ≤ s.cfg.arraySize
  erased : ∀ i < 8 * doubleWords d.length, s.byteAt (a.toNat + i) = s.cfg.erasedByte
  inTime : ∀ i < doubleWords d.length, waits i < s.cfg.progTimeout.toNat ∧
    s.completesAfter (unitDraw waits i + padCount d i) (waits i) = true

/-- WRITE, which began its first double-word in `s`, begins double-word `j` in `t`. -/
structure UnitBegins (s : State) (a : Word) (d : List Byte) (waits : Nat → Nat) (j : Nat) (g : Regs) (t : State) : Prop
    extends Programmed s a.toNat d waits j t where
  offset : g.a = a
  draws : ∀ k, t.drawAt k = s.drawAt (unitDraw waits j + k)

section
variable {s : State} {a : Word} {d : List Byte} {waits : Nat → Nat} {j pos : Nat} {g : Regs} {es : List Event}

/-- The draws of the next double-word follow those of this one: of its boundaries and its flags, and, as it is not the last, of no
pad bytes. -/
theorem UnitBegins.drawAt_afterUnit {t : State} (ht : UnitBegins s a d waits j g t)
    (herased : t.erasedAt (a.toNat + 8 * j) = true) (hmore : j + 1 < doubleWords d.length) (k : Nat) :
    (t.afterUnit (a.toNat + 8 * j) (t.doubleWordBytes d j) (padCount d j + (waits j + 1))).drawAt k =
      s.drawAt (unitDraw waits (j + 1) + k) := by
  rw [afterUnit_drawAt doubleWordBytes_length herased, ht.draws, padCount_of_not_last hmore, unitDraw]
  congr 1
  omega

/-- WRITE programs double-word `j` and comes to the end of its cleanup; unless it is the last, the next one can begin there
(R220). -/
theorem UnitBegins.reaches_end {t : State} (ht : UnitBegins s a d waits j g t) (hs : WritePremises s a d waits)
    (hj : j < doubleWords d.length) :
    ∃ pos' g' es' x u, g'.u.toNat = j ∧ g'.r = false ∧ Programmed s a.toNat d waits (j + 1) u ∧ u.cleaned ∧
      (j + 1 < doubleWords d.length → UnitBegins s a d waits (j + 1) g' u) ∧
      Reaches (s.cfg.progTimeout.toNat + 7) (t.writing a d pos (.clearBefore j) g es) x ∧
      sequencerTurn (fsmTurn x) =
        nextUnit (writeRun a d pos' .cleanupWrite g') (u.writing a d pos' .cleanupWrite g' es') := by
  have haligned := hs.aligned
  have hrange := doubleWords_in_array haligned hs.inArray
  have hsize := arraySize_le (c := s.cfg)
  obtain ⟨hw, hcompletes⟩ := hs.inTime j hj
  have hdraws : t.completesAfter (padCount d j) (waits j) = true := by
    rw [completesAfter_congr ht.draws]
    exact hcompletes
  have herased := ht.erasedAt hj hs.erased
  obtain ⟨pos', g', es', x, ha, hu, hr, hreach, hend⟩ := reaches_nextUnit (a := a) (d := d) (u := j) (pos := pos) (g := g)
    (es := es) (o := a.toNat + 8 * j) (ht.live.trans hs.live) (ht.lock.trans hs.unlocked) ht.op (by omega)
    (by rw [ht.offset]) (by omega) (by rw [ht.cfg]; omega) (by rw [ht.cfg]; exact hw) hdraws
  have hprogrammed := ht.toProgrammed.succ (n := padCount d j + (waits j + 1)) hs.admissible haligned hs.inArray hj herased
    ht.draws
  have hnext (hmore : j + 1 < doubleWords d.length) := ht.drawAt_afterUnit herased hmore
  exact ⟨pos', g', es', x, _, hu, hr, hprogrammed, afterUnit_cleaned,
    fun hmore => ⟨hprogrammed, ha.trans ht.offset, hnext hmore⟩, hreach.mono (by omega), hend⟩

/-- WRITE comes to each of its double-words. -/
theorem reaches_unit (hs : WritePremises s a d waits) (hg : g.a = a) (hj : j < doubleWords d.length) :
    ∃ pos' g' es' t, UnitBegins s a d waits j g' t ∧
      Reaches ((s.cfg.progTimeout.toNat + 8) * j) (s.writing a d pos (.clearBefore 0) g es)
        (t.writing a d pos' (.clearBefore j) g' es') := by
  induction j with
  | zero =>
    exact ⟨pos, g, es, s, ⟨programmed_zero hs.op hs.memory, hg, fun k => by rw [unitDraw, Nat.zero_add]⟩, .refl _⟩
  | succ j ih =>
    obtain ⟨pos₁, g₁, es₁, t, ht, hreach⟩ := ih (by omega)
    obtain ⟨pos₂, g₂, es₂, x, u, hu, hr, -, -, hnext, hreach', hend⟩ := ht.reaches_end (pos := pos₁) (es := es₁) hs (by omega)
    rw [nextUnit_goesOn hr hu hj] at hend
    have hlive : u.live = true := (hnext hj).live.trans hs.live
    refine ⟨pos₂ + 1, g₂, es₂, u, hnext hj, ((hreach.trans hreach').trans (reaches_of_turn hend hlive)).mono ?_⟩
    rw [Nat.mul_succ]
    omega

/-- WRITE programs all its double-words and then responds. -/
theorem reaches_response (hs : WritePremises s a d waits) (hg : g.a = a) (hd : d ≠ []) :
    ∃ x u, Programmed s a.toNat d waits (doubleWords d.length) u ∧ u.cleaned ∧
      Reaches ((s.cfg.progTimeout.toNat + 8) * doubleWords d.length) (s.writing a d pos (.clearBefore 0) g es) x ∧
      sequencerTurn (fsmTurn x) = u.respond .ok (BitVec.ofNat 32 (8 * doubleWords d.length)) [] := by
  have hcount : doubleWords d.length ≠ 0 := by
    have hlength := List.length_pos_iff.mpr hd
    have hcovers := doubleWords_covers d.length
    omega
  obtain ⟨n, hn⟩ := Nat.exists_eq_succ_of_ne_zero hcount
  obtain ⟨pos₁, g₁, es₁, t, ht, hreach⟩ := reaches_unit (pos := pos) (es := es) hs hg (show n < doubleWords d.length by omega)
  obtain ⟨pos₂, g₂, es₂, x, u, hu, hr, hprogrammed, hcleaned, -, hreach', hend⟩ :=
    ht.reaches_end (pos := pos₁) (es := es₁) hs (by omega)
  rw [nextUnit_ends hr hu hn.symm] at hend
  rw [hn, Nat.mul_succ]
  exact ⟨x, { u with history := es₂ }, ⟨hprogrammed.kept, hprogrammed.op, hprogrammed.memory, hprogrammed.bytes⟩, hcleaned,
    (hreach.trans hreach').mono (by omega), hn ▸ hend⟩

/-- The busy check of WRITE with nothing in flight: its first double-word follows (R179, R220). -/
theorem boundary_busyCheck (hop : s.op = .none) (hd : d ≠ []) :
    sequencerTurn (fsmTurn (s.withRun (startRun (.write a (some d)) pos .busy))) =
      s.writing a d (pos + 1) (.clearBefore 0) { Regs.start (.write a (some d)) with s := s.srWord }
        (s.history ++ [registerEvent false srOffset s.srWord]) := by
  have hidle : ¬ s.bsy = true := by simp [State.bsy, hop]
  have hlength : d.length ≠ 0 := (List.length_pos_iff.mpr hd).ne'
  rw [boundary_withRun _ hop]
  exact (if_neg hidle).trans (if_neg hlength)

/-- WRITE over erased bytes of an unlocked, quiet block, each completion step within the budget, answers OK with the padded length,
and its bytes lie in the array where no page is protected (R157, R220, R221). -/
theorem exec_write_over_erased (hinv : StateInv s) (hquiet : Quiet s) (hlock : s.lock = false) (hd : d ≠ [])
    (haligned : a.toNat % 8 = 0) (hin : a.toNat + d.length ≤ s.capacity)
    (herased : ∀ i < ceil8 d.length, s.byteAt (a.toNat + i) = s.cfg.erasedByte)
    (hdraws : ∀ i < doubleWords d.length, waits i < s.cfg.progTimeout.toNat ∧
      s.completesAfter (unitDraw waits i + padCount d i) (waits i) = true) :
    ∃ t, exec (.write a (some d)) s = .next (t.respond .ok (BitVec.ofNat 32 (ceil8 d.length)) []) ∧ t.cleaned ∧
      Programmed s.discovered a.toNat d waits (doubleWords d.length) t := by
  obtain ⟨hadmissible, hmem, -, -, -, hcache⟩ := stateInv_iff.mp hinv
  obtain ⟨⟨hlive, -⟩, hop⟩ := id hquiet
  have hlength : d.length ≠ 0 := (List.length_pos_iff.mpr hd).ne'
  rw [capacity_eq_arraySize hcache] at hin
  rw [← eight_mul_doubleWords] at herased ⊢
  have hchecked : writeChecks s.cfg s.discovered.chipSizeCache a (some d) = .busyCheck := by
    have hbase := flashBase_mod_eight hadmissible
    have haddress : ¬ arrayAddress s.cfg a.toNat % 8 ≠ 0 := by unfold arrayAddress; omega
    simp only [writeChecks, if_neg haddress, discovered_chipSizeCache_toNat hcache, inRange_of_le hlength hin, if_true]
  obtain ⟨pos, hstart⟩ := reaches_discovered (c := .write a (some d)) hop hlive rfl (.inl ⟨hchecked, rfl⟩)
    fun h => stepDiscover_startRun_of_busyCheck h (by rw [discovered_of_cached h] at hchecked; exact hchecked)
  obtain ⟨cache, es, hdiscovered⟩ := exists_discovered_eq s
  have hs : WritePremises s.discovered a d waits := by
    rw [hdiscovered]
    exact ⟨hadmissible, hmem, hlive, hlock, hop, haligned, hin, herased, hdraws⟩
  have hbusy := reaches_of_turn (boundary_busyCheck (a := a) (pos := pos) hs.op hd) hs.live
  obtain ⟨x, t, hprogrammed, hcleaned, hreach, hend⟩ := reaches_response
    (g := { Regs.start (.write a (some d)) with s := s.discovered.srWord }) hs rfl hd
  have hcfg : s.discovered.cfg = s.cfg := by rw [hdiscovered]
  have hbound := (hstart.trans hbusy).trans hreach
  rw [hcfg] at hbound
  exact ⟨t, hbound.exec_eq rfl hquiet (by simp only [commandBound]; omega) hend rfl (hprogrammed.live.trans hs.live),
    hcleaned, hprogrammed⟩

end

end Sys2Proof.Machine
end

section
/-! PROOFS. The round-trip law of the array (20_memory.md R74, 44_write.md R220, 45_read_accessors.md R230). -/

namespace Sys2Proof.Machine

/-- With no page protected, the span that WRITE programmed holds the data (R74). -/
theorem Programmed.bytesFrom_eq {s t : State} {a : Nat} {d : List Byte} {waits : Nat → Nat}
    (h : Programmed s a d waits (doubleWords d.length) t) (hwrp : s.cfg.wrpPages = []) : t.bytesFrom a d.length = d := by
  have hcovers := doubleWords_covers d.length
  apply List.ext_getElem (bytesFrom_length a d.length)
  intro i _ hi
  have hbyte : t.byteAt (a + i) = d[i] := by
    rw [h.bytes, if_pos ⟨by omega, by simp [hwrp]⟩, Nat.add_sub_cancel_left, State.writtenByte, if_pos hi,
      List.getD_eq_getElem _ _ hi]
  simpa [State.bytesFrom] using hbyte

/-- Settles O49: WRITE leaves a quiet block whose span holds the data, and READ copies the span. -/
theorem writeThenReadReturnsData : Obligations.WriteThenReadReturnsData := by
  unfold Obligations.WriteThenReadReturnsData
  intro s a d waits hinv hquiet hlock hwrp hd haligned hin herased hdraws
  obtain ⟨t, hwrite, -, ht⟩ := exec_write_over_erased hinv hquiet hlock hd haligned hin herased hdraws
  obtain ⟨-, -, -, -, -, hcache⟩ := stateInv_iff.mp hinv
  obtain ⟨-, -, -, -, -, hcache'⟩ := stateInv_iff.mp (exec_keeps stateInv_keptBySequencer stateInv_fsmTurn hinv hwrite)
  obtain ⟨cache, es, hdiscovered⟩ := exists_discovered_eq s
  rw [hdiscovered] at ht
  have hlive : t.live = true := ht.live.trans hquiet.left.left
  have hlength : (BitVec.ofNat 32 d.length).toNat = d.length := by
    have hsize := arraySize_le (c := s.cfg)
    rw [capacity_eq_arraySize hcache] at hin
    rw [BitVec.toNat_ofNat]
    omega
  have hnonempty : (BitVec.ofNat 32 d.length).toNat ≠ 0 := by
    rw [hlength]
    exact (List.length_pos_iff.mpr hd).ne'
  have hinside : a.toNat + (BitVec.ofNat 32 d.length).toNat ≤ t.cfg.arraySize := by
    rw [hlength, ht.cfg, ← capacity_eq_arraySize hcache]
    exact hin
  have hread := exec_read_of_quiet (s := t.respond .ok (BitVec.ofNat 32 (ceil8 d.length)) []) ⟨⟨hlive, rfl⟩, ht.op⟩ hcache'
    hnonempty hinside
  have hdata : t.bytesFrom a.toNat (BitVec.ofNat 32 d.length).toNat = d := by
    rw [hlength]
    exact ht.bytesFrom_eq hwrp
  exact ⟨_, _, hwrite, hread, congrArg (fun bytes => some (Response.mk .ok (BitVec.ofNat 32 d.length) bytes)) hdata⟩

end Sys2Proof.Machine
end

section
/-! SUPPORT. How the two encodings are read: a descriptor field by field, a command word by its opcode (30_encoding.md R104 to
R110). -/

namespace Sys2Proof

/-! ### BUS32: from a descriptor to its instruction and back -/

/-- A descriptor whose bit 30 is 0 is laid out from its own fields (R109). -/
theorem descriptor_of_fields {w : Word} (h : descriptorReserved w = false) :
    descriptor (descriptorWrites w) (descriptorSpace w) (descriptorWidth w) (descriptorOffset w) = w := by
  rw [descriptorReserved, BitVec.getLsbD_eq_getElem (by decide)] at h
  unfold descriptor descriptorWrites descriptorSpace descriptorWidth descriptorOffset
  ext i hi
  interval_cases i <;> simp [h, BitVec.getLsbD_eq_getElem]

section
variable {write : Bool} {width : BitVec 2} {o : BitVec 26} {v : Word} {i : Instr}

theorem decodeBus_register :
    decodeBus (descriptor write spaceRegister width o) v = decodeRegister (descriptor write spaceRegister width o) v := by
  simp [decodeBus]

theorem decodeBus_array :
    decodeBus (descriptor write spaceArray width o) v = decodeArray (descriptor write spaceArray width o) v := by
  simp [decodeBus, spaceArray, spaceRegister]

theorem decodeBus_fuse :
    decodeBus (descriptor write spaceFuse width o) v = decodeFuse (descriptor write spaceFuse width o) := by
  simp [decodeBus, spaceArray, spaceRegister, spaceFuse]

theorem encode_of_decodeRegister (h : decodeRegister (descriptor write spaceRegister width o) v = .ok i) :
    encode i = .bus ⟨descriptor write spaceRegister width o, if write then v else 0⟩ := by
  simp only [decodeRegister, descriptorWidth_descriptor, descriptorOffset_descriptor, descriptorWrites_descriptor] at h
  split at h
  case isTrue => cases h
  case isFalse hwidth =>
    obtain rfl := not_not.mp hwidth
    split_ifs at h
    all_goals
      cases h
      simp_all [encode, registerDescriptor]

theorem encode_of_decodeArray (h : decodeArray (descriptor write spaceArray width o) v = .ok i) :
    encode i = .bus ⟨descriptor write spaceArray width o, if write then v else 0⟩ := by
  simp only [decodeArray, descriptorWidth_descriptor, descriptorOffset_descriptor, descriptorWrites_descriptor] at h
  split_ifs at h with hwrite hwidth hwidth
  all_goals
    cases h
    simp [encode, hwrite, hwidth]

theorem encode_of_decodeFuse (h : decodeFuse (descriptor write spaceFuse width o) = .ok i) :
    encode i = .bus ⟨descriptor write spaceFuse width o, if write then v else 0⟩ := by
  simp only [decodeFuse, descriptorWidth_descriptor, descriptorOffset_descriptor, descriptorWrites_descriptor] at h
  split_ifs at h with hfields
  cases h
  simp [encode, hfields]

/-- A descriptor that is read as an instruction is that instruction's encoding, with the value if it writes (R109, R110). -/
theorem encode_of_decodeBus {w : Word} (h : decodeBus w v = .ok i) :
    encode i = .bus ⟨w, if descriptorWrites w then v else 0⟩ := by
  have hreserved : descriptorReserved w = false := Bool.eq_false_iff.mpr fun hbit => by simp [decodeBus, hbit] at h
  have hw := descriptor_of_fields hreserved
  generalize descriptorWrites w = write, descriptorSpace w = space, descriptorWidth w = width, descriptorOffset w = o at hw ⊢
  subst hw
  by_cases hregister : space = spaceRegister
  · subst hregister
    exact encode_of_decodeRegister (decodeBus_register.symm.trans h)
  by_cases harray : space = spaceArray
  · subst harray
    exact encode_of_decodeArray (decodeBus_array.symm.trans h)
  by_cases hfuse : space = spaceFuse
  · subst hfuse
    exact encode_of_decodeFuse (decodeBus_fuse.symm.trans h)
  · simp [decodeBus, hregister, harray, hfuse] at h

/-- R106 limits the data of a command, and no operand of a bus transaction. -/
theorem wellFormed_of_isBus (h : (encode i).isBus = true) : WellFormed i := by
  cases i with
  | write addr data => cases h
  | _ => rfl

end

/-! ### CMD32: from a command word to its opcode and back -/

/-- A command word whose bits 31 to 4 are 0 is its opcode (R104). -/
theorem opcode_setWidth_eq {w : Word} (h : w.extractLsb' 4 28 = 0) : (w.extractLsb' 0 4).setWidth 32 = w := by
  have hhigh := congrArg BitVec.toNat h
  simp only [BitVec.extractLsb'_toNat, Nat.shiftRight_eq_div_pow, BitVec.ofNat_eq_ofNat, BitVec.toNat_ofNat] at hhigh
  apply BitVec.eq_of_toNat_eq
  rw [BitVec.toNat_setWidth_of_le (by decide), BitVec.extractLsb'_toNat, Nat.shiftRight_zero]
  omega

/-- A command that is read as an instruction has that instruction's word, and data that fits (R105, R106). -/
theorem encode_of_decodeCommand {q : CommandRequest} {i : Instr} (h : decodeCommand q = .ok i) :
    (encode i).isBus = false ∧ (encode i).word = q.word ∧ WellFormed i := by
  unfold decodeCommand at h
  split at h
  case isTrue => cases h
  case isFalse hhigh =>
    have hopcode := opcode_setWidth_eq (not_not.mp hhigh)
    split_ifs at h
    all_goals
      cases h
      simp_all [encode, CommandRequest.bare, Request.isBus, Request.word, WellFormed, Instr.wellFormed]

/-- A word of no opcode of R105 is reserved, whatever its operands (R107). -/
theorem decodeCommand_of_reserved {q : CommandRequest} (h : q.word = 0 ∨ 9 ≤ q.word.toNat) :
    decodeCommand q = .error .reservedCommand := by
  by_cases hhigh : q.word.extractLsb' 4 28 = 0
  · have hopcode := opcode_setWidth_eq hhigh
    have hother (op : BitVec 4) (hpos : op ≠ 0) (hle : op.toNat ≤ 8) : q.word.extractLsb' 0 4 ≠ op := by
      rintro rfl
      rw [← hopcode] at h
      bv_omega
    simp [decodeCommand, hhigh, hother]
  · exact if_pos hhigh

end Sys2Proof
end

section
/-! PROOFS. Decoder and encoder are inverse to each other (30_encoding.md R105, R106, R109, R110). -/

namespace Sys2Proof

/-- Settles O2, by the constructors: a command by its opcode, a transaction by its SPACE. -/
theorem encodedInstructionDecodes : Obligations.EncodedInstructionDecodes := by
  unfold Obligations.EncodedInstructionDecodes
  intro i hi
  cases i with
  | init | unlock | lock | erase | read | pageSize | chipSize =>
    simp [decode, encode, decodeCommand, CommandRequest.bare]
  | write addr data =>
    have hfits : dataFits data = true := hi
    simp [decode, encode, decodeCommand, CommandRequest.bare, hfits]
  | srRd | srWr | crRd | crWr | keyrWr | keyrRd | acrRd | acrWr | optrRd | optrWr =>
    simp [decode, encode, registerDescriptor, decodeBus_register, decodeRegister, srOffset, crOffset, keyrOffset, acrOffset,
      optrOffset]
  | arrRd8 | arrWr32 => simp [decode, encode, decodeBus_array, decodeArray]
  | fuseRd16 => simp [decode, encode, decodeBus_fuse, decodeFuse]

/-- Settles O3: either encoding is read as the instruction that it spells. -/
theorem decodedWordIsItsEncoding : Obligations.DecodedWordIsItsEncoding := by
  unfold Obligations.DecodedWordIsItsEncoding
  intro q i h
  cases q with
  | command q => exact encode_of_decodeCommand h
  | bus q =>
    have hencode := encode_of_decodeBus h
    have hbus : (encode i).isBus = true := congrArg Request.isBus hencode
    have hword : (encode i).word = q.word := congrArg Request.word hencode
    exact ⟨hbus, hword, wellFormed_of_isBus hbus⟩

/-- A table word that stands for the encoding of an instruction is read as that instruction. -/
theorem decodeTableWord_of_encode {w : Nat} {i : Instr} (hw : w < 2 ^ 32) (hi : WellFormed i)
    (h : Request.ofTableWord w = encode i) : decodeTableWord 32 w = some i := by
  rw [decodeTableWord, if_pos ⟨rfl, hw⟩, h, encodedInstructionDecodes i hi]

/-- Settles O1: each word stands for the encoding of its row's instruction, and 9 is reserved. -/
theorem tableWordsDecode : Obligations.TableWordsDecode := by
  unfold Obligations.TableWordsDecode
  refine ⟨?_, ?_, ?_, ?_, ?_, ?_, ?_, ?_, ?_, ?_, ?_, ?_, ?_, ?_, ?_, ?_, ?_, ?_, ?_, ?_, ?_, rfl⟩
  all_goals exact decodeTableWord_of_encode (by decide) rfl (by decide)

end Sys2Proof
end

section
/-! PROOFS. A reserved command word is refused before any transaction (30_encoding.md R107, 41_sequencer.md R171). -/

namespace Sys2Proof.Machine

/-- The host has the move when the sequencer is idle and nothing stands at the test port (R170). -/
theorem step_eq_actHost {s : State} (h : Ready s) (hport : s.busProbe = none) : step s = actHost (fsmTurn s) := by
  obtain ⟨hlive, hseq⟩ := h
  simp [step_of_live hlive, act, hseq, hport]

/-- A command in front of the host's list that no instruction spells is taken, and its reason answers. -/
theorem step_of_rejected_command {s : State} {q : CommandRequest} {rest : List CommandRequest} {e : Reject} (h : Ready s)
    (hport : s.busProbe = none) (hlist : s.requests = q :: rest) (hdecode : decode (.command q) = .error e) :
    step s = rejectRequest e { fsmTurn s with requests := rest } := by
  rw [step_eq_actHost h hport]
  simp [actHost, hlist, hdecode, State.popRequest]

/-- Settles O4: the decoder rejects the word, and the refusal is recorded in a state with no fault. -/
theorem reservedCommandWordStops : Obligations.ReservedCommandWordStops := by
  unfold Obligations.ReservedCommandWordStops
  intro s q rest hready hport hlist hword
  obtain ⟨hfault, -⟩ := live_iff.mp hready.left
  rw [step_of_rejected_command hready hport hlist (decodeCommand_of_reserved hword)]
  exact outcome_of_refused ((fsmTurn_fault s).trans hfault) rfl

end Sys2Proof.Machine
end

section
/-! SUPPORT. What completion leaves in the array, by the branches of R156 to R160, and the flash FSM's turn in which it
happens (40_register_bus.md R155, R161). -/

namespace Sys2Proof.Machine

/-! ### The branches of completion -/

section
variable {s : State} {p : BitVec 6} {o : Nat} {lo hi : Word}

theorem completeErase_of_protected (h : p.toNat ∈ s.cfg.wrpPages) : completeErase p s = s := by
  simp [completeErase, h]

/-- The completion of an aborted erase draws the page (R159). -/
theorem completeErase_of_aborted (h : p.toNat ∉ s.cfg.wrpPages) (haborted : s.aborted = true) :
    completeErase p s = s.drawInto (p.toNat * s.cfg.page) s.cfg.page := by
  simp [completeErase, h, haborted]

/-- The completion of an erase that was not aborted erases the page (R156). -/
theorem completeErase_of_not_aborted (h : p.toNat ∉ s.cfg.wrpPages) (haborted : s.aborted = false) :
    completeErase p s = s.putBytes (p.toNat * s.cfg.page) (List.replicate s.cfg.page s.cfg.erasedByte) := by
  simp [completeErase, h, haborted]

theorem completeProgram_of_protected (h : o / s.cfg.page ∈ s.cfg.wrpPages) : completeProgram o lo hi s = s := by
  simp [completeProgram, h]

/-- The completion of a program that was aborted, or over a byte that is not erased, draws the double-word (R158, R159). -/
theorem completeProgram_of_disturbed (h : o / s.cfg.page ∉ s.cfg.wrpPages)
    (hdisturbed : s.aborted = true ∨ s.erasedAt o = false) : completeProgram o lo hi s = s.drawInto o 8 := by
  obtain haborted | hdirty := hdisturbed
  · simp [completeProgram, h, haborted]
  · simp [completeProgram, h, hdirty]

/-! ### The turn in which it happens -/

theorem fsmTurn_of_erase_completion (hlive : s.live = true) (hop : s.op = .erase p) (hdraw : drawBit (s.drawAt 0) = true) :
    fsmTurn s = finishOp (.erase p) (completeErase p (s.afterDraws 1)) := by
  rw [fsmTurn_of_completion hlive (by simp [hop]) hdraw]
  simp [fsmComplete, hop]

theorem fsmTurn_of_program_completion (hlive : s.live = true) (hop : s.op = .program o lo hi)
    (hdraw : drawBit (s.drawAt 0) = true) :
    fsmTurn s = finishOp (.program o lo hi) (completeProgram o lo hi (s.afterDraws 1)) := by
  rw [fsmTurn_of_completion hlive (by simp [hop]) hdraw]
  simp [fsmComplete, hop]

end

/-! ### The bytes -/

section
variable {s : State}

/-- What every offset reads as after bytes are drawn into the array, byte `i` from draw `i`. -/
theorem byteAt_drawInto (o n x : Nat) (h : s.memoryOk = true) :
    (s.drawInto o n).byteAt x = if o ≤ x ∧ x < o + n then drawByte (s.drawAt (x - o)) else s.byteAt x := by
  have hput := byteAt_putBytes s o (s.drawBytes 0 n) x h
  rw [drawBytes_length] at hput
  refine hput.trans (if_ctx_congr Iff.rfl (fun hx => ?_) fun _ => rfl)
  rw [drawBytes_getD s n 0 (x - o) (by omega), Nat.zero_add]

/-- Completion that puts bytes and was not aborted, after the draw of its boundary: the array holds the bytes, the operation is
over, and the flags are the next draw. -/
theorem finishOp_putBytes (haborted : s.aborted = false) (op : Op) (o : Nat) (bytes : List Byte) :
    finishOp op ((s.afterDraws 1).putBytes o bytes) =
      { s.afterDraws 2 with
        array := (s.putBytes o bytes).array
        op := .none
        flags := flagsOfWord (s.drawAt 1)
        history := s.history ++ [.completion op] } := by
  have hflags : ((s.afterDraws 1).putBytes o bytes).drawAt 0 = s.drawAt 1 := drawAt_afterDraws s 1 0
  rw [finishOp, hflags, ← haborted, ← afterDraws_afterDraws s 1 1]
  rfl

end

end Sys2Proof.Machine
end

section
/-! PROOFS. What each completion leaves in the array (40_register_bus.md R156 to R161). -/

namespace Sys2Proof.Machine

/-- Settles O35: the turn puts one erased byte at each offset of the page. -/
theorem eraseCompletionErasesPage : Obligations.EraseCompletionErasesPage := by
  unfold Obligations.EraseCompletionErasesPage
  intro s p hinv hlive hop haborted hpage hdraw
  obtain ⟨-, hmem, -⟩ := stateInv_iff.mp hinv
  refine ⟨(s.putBytes (p.toNat * s.cfg.page) (List.replicate s.cfg.page s.cfg.erasedByte)).array, ?_, fun o => ?_⟩
  · rw [fsmTurn_of_erase_completion hlive hop hdraw,
      completeErase_of_not_aborted (s := s.afterDraws 1) hpage haborted]
    exact finishOp_putBytes haborted _ _ _
  · have hput := byteAt_putBytes s (p.toNat * s.cfg.page) (List.replicate s.cfg.page s.cfg.erasedByte) o hmem
    rw [List.length_replicate] at hput
    rw [Nat.succ_mul]
    refine hput.trans (if_ctx_congr Iff.rfl (fun ho => ?_) fun _ => rfl)
    rw [List.getD_replicate _ (by omega)]

/-- Settles O36: the turn puts the bytes of the two words at the double-word. -/
theorem programCompletionStoresWords : Obligations.ProgramCompletionStoresWords := by
  unfold Obligations.ProgramCompletionStoresWords
  intro s o lo hi hinv hlive hop haborted hpage herased hdraw
  obtain ⟨-, hmem, -⟩ := stateInv_iff.mp hinv
  have hput := byteAt_putBytes s o (bytesOfWord lo ++ bytesOfWord hi) (h := hmem)
  refine ⟨(s.putBytes o (bytesOfWord lo ++ bytesOfWord hi)).array, ?_, fun i hlt => ?_, fun i hlt => ?_, fun x hx => ?_⟩
  · have hprogram := completeProgram_of_erased (s := s.afterDraws 1) (lo := lo) (hi := hi) haborted (erasedAt_iff.mpr herased)
    rw [if_neg (by simpa using hpage)] at hprogram
    rw [fsmTurn_of_program_completion hlive hop hdraw, hprogram]
    exact finishOp_putBytes haborted _ _ _
  · refine (hput (o + i)).trans ?_
    interval_cases i <;> simp [bytesOfWord]
  · refine (hput (o + 4 + i)).trans ?_
    interval_cases i <;> simp [bytesOfWord, Nat.add_assoc]
  · refine (hput x).trans (if_neg ?_)
    simp only [bytesOfWord, List.length_append, List.length_cons, List.length_nil]
    omega

/-- Settles O37: in every case the turn draws the target, and completion touches no control field. -/
theorem disturbedCompletionDrawsTarget : Obligations.DisturbedCompletionDrawsTarget := by
  unfold Obligations.DisturbedCompletionDrawsTarget
  intro s start size hinv hlive hdraw htarget
  obtain ⟨-, hmem, -⟩ := stateInv_iff.mp hinv
  obtain ⟨op, hturn⟩ : ∃ op, fsmTurn s = finishOp op ((s.afterDraws 1).drawInto start size) := by
    obtain ⟨p, hop, haborted, hpage, rfl, rfl⟩ | ⟨lo, hi, hop, rfl, hpage, hdisturbed⟩ := htarget
    · rw [fsmTurn_of_erase_completion hlive hop hdraw,
        completeErase_of_aborted (s := s.afterDraws 1) hpage haborted]
      exact ⟨_, rfl⟩
    · have hdirty : s.aborted = true ∨ s.erasedAt start = false := by
        simpa [← Bool.not_eq_true, erasedAt_iff] using hdisturbed
      rw [fsmTurn_of_program_completion hlive hop hdraw,
        completeProgram_of_disturbed (s := s.afterDraws 1) hpage hdirty]
      exact ⟨_, rfl⟩
  have hbytes (x : Nat) : (fsmTurn s).byteAt x =
      if start ≤ x ∧ x < start + size then drawByte (s.drawAt (1 + (x - start))) else s.byteAt x := by
    rw [hturn, ← drawAt_afterDraws]
    exact byteAt_drawInto (s := s.afterDraws 1) start size x hmem
  refine ⟨fun i hi => ?_, fun x hx => ?_, by rw [hturn]; rfl, by rw [hturn]; rfl, fsmTurn_pg s, fsmTurn_per s, fsmTurn_pnb s,
    fsmTurn_lock s, fsmTurn_latch s, fsmTurn_keyStage s, fsmTurn_seq s⟩
  · rw [hbytes, if_pos (by omega), Nat.add_sub_cancel_left]
    rfl
  · rw [hbytes, if_neg (by omega)]

/-- Settles O38: of either operation, only the common effect is left. -/
theorem protectedPageIsUnchanged : Obligations.ProtectedPageIsUnchanged := by
  unfold Obligations.ProtectedPageIsUnchanged
  intro s hlive hdraw htarget
  obtain ⟨op, hturn⟩ : ∃ op, fsmTurn s = finishOp op (s.afterDraws 1) := by
    obtain ⟨p, hop, hpage⟩ | ⟨o, lo, hi, hop, hpage⟩ := htarget
    · rw [fsmTurn_of_erase_completion hlive hop hdraw, completeErase_of_protected (s := s.afterDraws 1) hpage]
      exact ⟨_, rfl⟩
    · rw [fsmTurn_of_program_completion hlive hop hdraw, completeProgram_of_protected (s := s.afterDraws 1) hpage]
      exact ⟨_, rfl⟩
  rw [hturn]
  exact ⟨rfl, fun _ => rfl, rfl, rfl⟩

end Sys2Proof.Machine
end

section
/-! SUPPORT. Which descriptors the decoder rejects, and the step that takes a request (30_encoding.md R109, R110, R131,
41_sequencer.md R170, R171). -/

namespace Sys2Proof.Machine

/-! ### What the decoder accepts and rejects -/

/-- The bus transactions are the instructions that are no command. -/
theorem isBus_encode (i : Instr) : (encode i).isBus = (commandOf i).isNone := by
  cases i <;> rfl

theorem matchesBusRow_of_mem {w value mask : Word} (hrow : (value, mask) ∈ busRows) (h : w &&& mask = value) :
    matchesBusRow w = true :=
  List.any_eq_true.mpr ⟨_, hrow, decide_eq_true h⟩

/-- The word of every bus transaction matches its row of R110. -/
theorem matchesBusRow_encode {i : Instr} (h : (encode i).isBus = true) : matchesBusRow (encode i).word = true := by
  cases i with
  | init | unlock | lock | erase | write | read | pageSize | chipSize => cases h
  | arrRd8 o => exact matchesBusRow_of_mem (value := 0x10000000) (mask := 0xFC000000) (by decide) (Laws.TableRow.arrRd8 o)
  | arrWr32 o v => exact matchesBusRow_of_mem (value := 0x98000000) (mask := 0xFC000000) (by decide) (Laws.TableRow.arrWr32 o v)
  | _ =>
    simp only [encode, Request.word]
    decide

/-- A word access to an aligned register offset, by the fields of the descriptor (R77, R109). -/
theorem isRegisterWordAccess_iff {w : Word} :
    isRegisterWordAccess w = true ↔
      descriptorReserved w = false ∧ descriptorSpace w = spaceRegister ∧ descriptorWidth w = widthWord ∧
        (descriptorOffset w).toNat % 4 = 0 := by
  have hoffset : (descriptorOffset w).toNat % 4 = 0 ↔ (descriptorOffset w).extractLsb' 0 2 = 0 := by
    simp [← BitVec.toNat_inj]
  rw [hoffset]
  simp only [isRegisterWordAccess, decide_eq_true_eq, descriptorReserved, descriptorSpace, descriptorWidth,
    descriptorOffset, spaceRegister, widthWord, BitVec.eq_of_getLsbD_eq_iff, Nat.forall_lt_succ_right]
  simp [and_assoc, and_comm]

theorem reject_of_decodeRegister {w v : Word} {e : Reject} (h : decodeRegister w v = .error e) :
    e = if descriptorWidth w = widthWord ∧ (descriptorOffset w).toNat % 4 = 0 then .unmodelledRegister
      else .badTransaction := by
  unfold decodeRegister at h
  by_cases hwidth : descriptorWidth w = widthWord
  · by_cases haligned : (descriptorOffset w).toNat % 4 = 0
    · rw [if_pos ⟨hwidth, haligned⟩]
      rw [if_neg (not_not.mpr hwidth), if_neg (not_not.mpr haligned)] at h
      repeat' split at h
      all_goals cases h
      rfl
    · rw [if_neg (not_not.mpr hwidth), if_pos haligned] at h
      cases h
      simp [haligned]
  · rw [if_pos hwidth] at h
    cases h
    simp [hwidth]

theorem reject_of_decodeArray {w v : Word} {e : Reject} (h : decodeArray w v = .error e) : e = .badTransaction := by
  unfold decodeArray at h
  repeat' split at h
  all_goals cases h
  all_goals rfl

theorem reject_of_decodeFuse {w : Word} {e : Reject} (h : decodeFuse w = .error e) : e = .badTransaction := by
  unfold decodeFuse at h
  split at h
  all_goals cases h
  rfl

/-- The decoder rejects a descriptor for its register offset exactly if it is a word access to an aligned one (R131, R145). -/
theorem reject_of_decodeBus {w v : Word} {e : Reject} (h : decodeBus w v = .error e) :
    e = if isRegisterWordAccess w then .unmodelledRegister else .badTransaction := by
  unfold decodeBus at h
  simp only [isRegisterWordAccess_iff]
  split_ifs at h with hreserved hregister harray hfuse
  · cases h
    simp [hreserved]
  · simpa [hreserved, hregister] using reject_of_decodeRegister h
  · simpa [hregister] using reject_of_decodeArray h
  · simpa [hregister] using reject_of_decodeFuse h
  · cases h
    simp [hregister]

/-- A descriptor of no row is rejected (R131). -/
theorem decodeBus_of_unlisted {w : Word} (h : matchesBusRow w = false) (v : Word) :
    decodeBus w v = .error (if isRegisterWordAccess w then .unmodelledRegister else .badTransaction) := by
  cases hdecode : decodeBus w v with
  | error e => rw [reject_of_decodeBus hdecode]
  | ok i =>
    have hencode := encode_of_decodeBus hdecode
    have hrow := matchesBusRow_encode (congrArg Request.isBus hencode)
    rw [congrArg Request.word hencode] at hrow
    cases h.symm.trans hrow

/-! ### The step that takes a request -/

section
variable {s : State}

theorem fsmTurn_live (s : State) : (fsmTurn s).live = s.live := live_congr (fsmTurn_fault s) (fsmTurn_refused s)

/-- The idle sequencer takes the transaction at the test port, after the flash FSM's turn. -/
theorem step_eq_actProbe {q : BusRequest} (h : Ready s) (hport : s.busProbe = some q) :
    step s = actProbe q (fsmTurn s) := by
  obtain ⟨hlive, hseq⟩ := h
  simp [step_of_live hlive, act, hseq, hport]

theorem step_of_decoded_probe {q : BusRequest} {i : Instr} (h : Ready s) (hport : s.busProbe = some q)
    (hdecode : decode (.bus q) = .ok i) : step s = exec i (fsmTurn s).popProbe := by
  simp [step_eq_actProbe h hport, actProbe, hdecode]

theorem step_of_rejected_probe {q : BusRequest} {e : Reject} (h : Ready s) (hport : s.busProbe = some q)
    (hdecode : decode (.bus q) = .error e) : step s = rejectRequest e ((fsmTurn s).popProbe.logRefused q) := by
  simp [step_eq_actProbe h hport, actProbe, hdecode]

theorem step_of_decoded_command {q : CommandRequest} {rest : List CommandRequest} {i : Instr} (h : Ready s)
    (hport : s.busProbe = none) (hlist : s.requests = q :: rest) (hdecode : decode (.command q) = .ok i) :
    step s = exec i { fsmTurn s with requests := rest } := by
  simp [step_eq_actHost h hport, actHost, hlist, hdecode, State.popRequest]

/-- A host with no command waits (R271). -/
theorem step_of_no_request (h : Ready s) (hport : s.busProbe = none) (hlist : s.requests = []) :
    step s = .next (fsmTurn s) := by
  rw [step_eq_actHost h hport]
  simp [actHost, hlist, outcome_of_live, fsmTurn_live, h.left]

/-- The completion step is recorded with its operation (R58). -/
theorem fsmComplete_history (hop : s.op ≠ .none) : (fsmComplete s).history = s.history ++ [.completion s.op] := by
  unfold fsmComplete
  split
  case h_1 hidle => exact absurd hidle hop
  all_goals simp [*]

end

end Sys2Proof.Machine
end

section
/-! PROOFS. The step of an idle sequencer: a request taken, refused, or none (R131, R155, R171, R271). -/

namespace Sys2Proof.Machine

/-- Settles O5: the decoder rejects the descriptor, and its reason is recorded after the transaction is logged. -/
theorem unlistedDescriptorStops : Obligations.UnlistedDescriptorStops := by
  unfold Obligations.UnlistedDescriptorStops
  intro s q hready hport hrow
  have hfault : (fsmTurn s).fault = none := (fsmTurn_fault s).trans (live_iff.mp hready.left).left
  rw [step_of_rejected_probe hready hport (decodeBus_of_unlisted hrow q.value)]
  generalize fsmTurn s = t at hfault ⊢
  cases isRegisterWordAccess q.word with
  | true =>
    simp only [if_true, rejectRequest]
    exact outcome_of_refused hfault rfl
  | false =>
    simp only [Bool.false_eq_true, if_false, rejectRequest]
    exact outcome_of_refused hfault rfl

/-- Settles O6: what decodes from either encoding is an instruction of that encoding, and the step executes it. -/
theorem stepRunsDecodedInstruction : Obligations.StepRunsDecodedInstruction := by
  unfold Obligations.StepRunsDecodedInstruction
  constructor
  · intro s q rest i hready hport hlist hdecode
    have hbus := (encode_of_decodeCommand hdecode).left
    rw [isBus_encode] at hbus
    exact ⟨by simpa using hbus, step_of_decoded_command hready hport hlist hdecode⟩
  · intro s q i hready hport hdecode
    have hbus : (encode i).isBus = true := congrArg Request.isBus (encode_of_decodeBus hdecode)
    rw [isBus_encode] at hbus
    exact ⟨Option.isNone_iff_eq_none.mp hbus, step_of_decoded_probe hready hport hdecode⟩

/-- Settles O9, by what the flash FSM can do at the boundary. -/
theorem idleStepWaits : Obligations.IdleStepWaits := by
  unfold Obligations.IdleStepWaits
  intro s hready hport hlist
  have hstep := step_of_no_request hready hport hlist
  refine ⟨hstep, fun hop => ?_, fun hop hdraw => ?_, fun hop hdraw => ⟨_, hstep, ?_⟩⟩
  · rw [hstep, fsmTurn_of_no_op hop]
  · rw [hstep, fsmTurn_of_wait hready.left hop hdraw]
  · rw [fsmTurn_of_completion hready.left hop hdraw]
    exact ⟨fsmComplete_op _, fsmComplete_history (s := s.afterDraws 1) hop⟩

end Sys2Proof.Machine
end

section
/-! SUPPORT. The images of the status flags and of CR bit by bit, and what each form of a register transaction does
(30_encoding.md R101, R102, 40_register_bus.md R130 to R144, R162). -/

namespace Sys2Proof.Machine

/-! ### The bits of the register images -/

section
variable {i : Nat}

theorem flagsOfWord_getLsbD (w : Word) (h : i < 10) : (flagsOfWord w).getLsbD i = w.getLsbD i := by
  have h1 : i < 11 := by omega
  simp [flagsOfWord, h, h1]

theorem flagsOfWord_getLsbD_ten (w : Word) : (flagsOfWord w).getLsbD 10 = w.getLsbD 15 := by
  simp [flagsOfWord]

theorem wordOfFlags_getLsbD (f : BitVec 11) (h : i < 32) :
    (wordOfFlags f).getLsbD i = if i < 10 then f.getLsbD i else if i = 15 then f.getLsbD 10 else false := by
  interval_cases i <;> simp [wordOfFlags]

theorem maskIf_getLsbD (b : Bool) (mask : Word) : (maskIf b mask).getLsbD i = (b && mask.getLsbD i) := by
  cases b <;> simp [maskIf]

theorem srWord_getLsbD (s : State) (h : i < 32) :
    s.srWord.getLsbD i =
      if i < 10 then s.flags.getLsbD i else if i = 15 then s.flags.getLsbD 10 else if i = 16 then s.bsy else false := by
  rw [State.srWord, BitVec.getLsbD_or, wordOfFlags_getLsbD _ h, maskIf_getLsbD]
  interval_cases i <;> simp [srBsy]

theorem crWord_getLsbD (s : State) (h : i < 32) :
    s.crWord.getLsbD i =
      if i = 0 then s.pg else if i = 1 then s.per else if 3 ≤ i ∧ i ≤ 8 then s.pnb.getLsbD (i - 3)
      else if i = 16 then s.strt else if i = 31 then s.lock else false := by
  simp only [State.crWord, BitVec.getLsbD_or, maskIf_getLsbD]
  interval_cases i <;> simp [crLock, crStrt, crPer, crPg]

end

theorem clearFlags_getLsbD (f : BitVec 11) (v : Word) {i : Nat} (h : i < 11) :
    (clearFlags f v).getLsbD i = (f.getLsbD i && !(flagsOfWord v).getLsbD i) := by
  rw [clearFlags, BitVec.getLsbD_and, BitVec.getLsbD_not, decide_eq_true h, Bool.true_and]

/-- Only the clear pattern's bits of a word name status flags (R101). -/
theorem flagsOfWord_and_srClear (w : Word) : flagsOfWord (w &&& srClear) = flagsOfWord w := by
  ext i hi
  interval_cases i <;> simp [flagsOfWord, srClear]

/-- A word without a flag bit clears no flag (R133). -/
theorem clearFlags_of_no_flag {f : BitVec 11} {v : Word} (h : v &&& srClear = 0) : clearFlags f v = f := by
  have hzero : flagsOfWord v = 0 := by
    rw [← flagsOfWord_and_srClear, h]
    decide
  rw [clearFlags, hzero, BitVec.ofNat_eq_ofNat, BitVec.not_zero, BitVec.and_allOnes]

/-! ### A transaction that goes on, and one that stops -/

section
variable {f : State → State} {s t : State}

theorem transaction_eq_next (hlive : s.live = true) (hf : f s = t) (ht : t.live = true) : transaction f s = .next t := by
  rw [transaction_of_live hlive, hf, outcome_of_live ht]

theorem transaction_eq_refused {why : RefuseReason} (hlive : s.live = true) (hf : f s = t) (hfault : t.fault = none)
    (hrefused : t.refused = some why) : transaction f s = .refused (.recorded why t) := by
  rw [transaction_of_live hlive, hf, outcome_of_refused hfault hrefused]

theorem transaction_eq_fault {r : FaultRecord} (hlive : s.live = true) (hf : f s = t) (hfault : t.fault = some r) :
    transaction f s = .fault (.busFault r.offset r.word t) := by
  rw [transaction_of_live hlive, hf, outcome_of_fault hfault]

end

/-! ### The forms of a CR write -/

section
variable {s : State} {v : Word}

theorem busCrWrite_of_locked (hlock : s.lock = true) : busCrWrite v s = s.logRegister true crOffset (some v) := if_pos hlock

theorem busCrWrite_of_unlocked (hlock : s.lock = false) :
    busCrWrite v s = crWriteUnlocked v (s.logRegister true crOffset (some v)) := if_neg (by simp [hlock])

/-- A write of 0 to LOCK leaves it (R141). -/
theorem setLockIf_of_clear (h : v.getLsbD 31 = false) : setLockIf v s = s := by
  rw [setLockIf, h, Bool.or_false]

/-- A CR write that starts nothing takes the fields (R136, R138). -/
theorem busCrWrite_of_no_start (hlock : s.lock = false)
    (h : v.getLsbD 16 = false ∨ s.op ≠ .none ∨ v.getLsbD 31 = true ∨ v.getLsbD 1 = false) :
    busCrWrite v s = setLockIf v (crFields v (s.logRegister true crOffset (some v))) := by
  rw [busCrWrite_of_unlocked hlock, crWriteUnlocked]
  split
  case isFalse => rfl
  case isTrue hstrt =>
    obtain ⟨hsame, -⟩ | ⟨hop, hv, hper, -⟩ := startCheck_cases v (crFields v (s.logRegister true crOffset (some v)))
    · rw [hsame]
    · rw [crFields_op, State.logRegister_op] at hop
      rw [crFields_per] at hper
      simp only [hstrt, hop, hv, hper, ne_eq, not_true, Bool.true_eq_false, Bool.false_eq_true, or_self] at h

/-- With no operation in flight the fields are taken and nothing is aborted (R136, R137). -/
theorem crFields_of_no_op (hop : s.op = .none) :
    crFields v s = { s with
      pg := v.getLsbD 0, per := v.getLsbD 1, pnb := crPageIndex v, latch := if v.getLsbD 0 then s.latch else none } := by
  have habort : abortCheck v s = false := by simp [abortCheck, hop, Op.isErase, Op.isProgram]
  rw [crFields, habort, Bool.or_false]

/-- A CR write with STRT and PER takes the fields; then both mode bits together are refused, and PER alone starts the erase
(R138, R139). -/
theorem busCrWrite_of_start (hlock : s.lock = false) (hop : s.op = .none) (hstrt : v.getLsbD 16 = true)
    (hv : v.getLsbD 31 = false) (hper : v.getLsbD 1 = true) :
    busCrWrite v s =
      if v.getLsbD 0 then
        State.refuse .bothModes
          { s.logRegister true crOffset (some v) with pg := true, per := true, pnb := crPageIndex v }
      else startErase
          { s.logRegister true crOffset (some v) with pg := false, per := true, pnb := crPageIndex v, latch := none } := by
  have hidle : ¬ (crFields v (s.logRegister true crOffset (some v))).op ≠ .none := not_not.mpr hop
  rw [busCrWrite_of_unlocked hlock, crWriteUnlocked, setLockIf_of_clear hv, if_pos hstrt, startCheck, if_neg hidle,
    if_neg (ne_true_of_eq_false hv), crFields_per, if_pos hper, crFields_pg,
    crFields_of_no_op (s := s.logRegister true crOffset (some v)) hop, hper]
  cases v.getLsbD 0 with
  | true => rfl
  | false => rfl

end

/-! ### The start of an operation -/

section
variable {s : State}

theorem startErase_of_partial (h : s.cfg.arraySize < (s.pnb.toNat + 1) * s.cfg.page) :
    startErase s = s.refuse .eraseOutsideArray := if_pos h

/-- With no flag set the erase of a whole page starts (R138). -/
theorem startErase_of_no_flag (hflags : s.flags = 0) (h : (s.pnb.toNat + 1) * s.cfg.page ≤ s.cfg.arraySize) :
    startErase s = { s with op := .erase s.pnb, aborted := false } := by
  simp [startErase, Nat.not_lt.mpr h, State.startDraw, State.afterStartDraw, hflags, State.begin]

/-- With a flag set the erase of a whole page starts as the draw says (R140). -/
theorem startErase_of_flag (hflags : s.flags ≠ 0) (hop : s.op = .none)
    (h : (s.pnb.toNat + 1) * s.cfg.page ≤ s.cfg.arraySize) :
    startErase s = { s.afterDraws 1 with
      op := if drawBit (s.drawAt 0) then .erase s.pnb else .none
      aborted := if drawBit (s.drawAt 0) then false else s.aborted } := by
  simp only [startErase, if_neg (Nat.not_lt.mpr h), State.startDraw, State.afterStartDraw, if_neg hflags,
    decide_eq_false hflags, Bool.false_or]
  cases drawBit (s.drawAt 0) with
  | true => rfl
  | false => exact hop ▸ rfl

/-- With a flag set a program starts as the draw says, and the latch is cleared either way (R140, R151). -/
theorem startProgram_of_flag (hflags : s.flags ≠ 0) (hop : s.op = .none) {o : Nat} {lo hi : Word} :
    startProgram o lo hi s = { s.afterDraws 1 with
      latch := none
      op := if drawBit (s.drawAt 0) then .program o lo hi else .none
      aborted := if drawBit (s.drawAt 0) then false else s.aborted } := by
  simp only [startProgram, State.startDraw, State.afterStartDraw, if_neg hflags, decide_eq_false hflags, Bool.false_or]
  cases drawBit (s.drawAt 0) with
  | true => rfl
  | false => exact hop ▸ rfl

end

end Sys2Proof.Machine
end

section
/-! PROOFS. The registers on the bus (40_register_bus.md R132 to R146, R162). -/

namespace Sys2Proof.Machine

/-- Settles O16: the word read is the image of SR. -/
theorem statusReadReturnsFlagsAndBusy : Obligations.StatusReadReturnsFlagsAndBusy := by
  unfold Obligations.StatusReadReturnsFlagsAndBusy
  intro s hlive
  exact ⟨s.srWord, transaction_eq_next hlive rfl hlive, fun i hi => srWord_getLsbD s hi⟩

/-- Settles O17: flag by flag of the flags that the word names. -/
theorem statusWriteClearsFlags : Obligations.StatusWriteClearsFlags := by
  unfold Obligations.StatusWriteClearsFlags
  intro s v hlive
  refine ⟨clearFlags s.flags v, transaction_eq_next hlive rfl hlive, fun i hi => ?_, ?_, ?_, clearFlags_of_no_flag⟩
  · have hwidth : i < 11 := by omega
    rw [clearFlags_getLsbD _ _ hwidth, flagsOfWord_getLsbD v hi]
  · rw [clearFlags_getLsbD _ _ (by decide), flagsOfWord_getLsbD_ten]
  · rintro rfl
    exact clearFlags_srClear s.flags

/-- Settles O18: the word read is the image of CR. -/
theorem controlReadReturnsFields : Obligations.ControlReadReturnsFields := by
  unfold Obligations.ControlReadReturnsFields
  intro s hlive
  exact ⟨s.crWord, transaction_eq_next hlive rfl hlive, fun i hi => crWord_getLsbD s hi⟩

/-- Settles O19: only the transaction is logged. -/
theorem controlWriteIgnoredWhileLocked : Obligations.ControlWriteIgnoredWhileLocked := by
  unfold Obligations.ControlWriteIgnoredWhileLocked
  intro s v hlive hlock
  exact transaction_eq_next hlive (busCrWrite_of_locked hlock) hlive

/-- Settles O20: the fields are taken, and LOCK if written 1. -/
theorem controlWriteTakesFields : Obligations.ControlWriteTakesFields := by
  unfold Obligations.ControlWriteTakesFields
  intro s v hlive hlock hstart
  refine transaction_eq_next hlive ?_ hlive
  rw [busCrWrite_of_no_start hlock hstart]
  simp only [setLockIf, crFields, abortCheck, State.logRegister_lock, hlock, Bool.false_or, Bool.or_assoc]
  rfl

/-- Settles O21: an operation is in flight, so the write starts nothing, and its mode bit is cleared. -/
theorem clearingModeBitAborts : Obligations.ClearingModeBitAborts := by
  unfold Obligations.ClearingModeBitAborts
  intro s v hlive hlock hclear
  have hop : s.op ≠ .none := by
    rintro hop
    simp [hop, Op.isErase, Op.isProgram] at hclear
  refine ⟨_, controlWriteTakesFields s v hlive hlock (.inr (.inl hop)), ?_, rfl, decide_eq_true hop, rfl, rfl⟩
  obtain ⟨hkind, hmode, hbit⟩ | ⟨hkind, hmode, hbit⟩ := hclear
  · simp only [hkind, hmode, hbit, Bool.not_false, Bool.and_self, Bool.or_true, Bool.true_or]
  · simp only [hkind, hmode, hbit, Bool.not_false, Bool.and_self, Bool.or_true]

/-- Settles O22: the erase starts in the state that has taken the fields. -/
theorem startBitStartsErase : Obligations.StartBitStartsErase := by
  unfold Obligations.StartBitStartsErase
  intro s v hlive hlock hop hflags hstrt hv hper hpg hwhole
  refine transaction_eq_next hlive ?_ hlive
  rw [busCrWrite_of_start hlock hop hstrt hv hper, if_neg (ne_true_of_eq_false hpg)]
  exact startErase_of_no_flag hflags hwhole

/-- Settles O23: the fields are taken, and then the start is refused. -/
theorem startWithoutMeaningStops : Obligations.StartWithoutMeaningStops := by
  unfold Obligations.StartWithoutMeaningStops
  intro s v hlive hlock hop hstrt hv hper
  obtain ⟨hfault, -⟩ := live_iff.mp hlive
  have hwrite := busCrWrite_of_start hlock hop hstrt hv hper
  refine ⟨fun hpg => transaction_eq_refused hlive (hwrite.trans (if_pos hpg)) hfault rfl, fun hpg hpartial =>
    transaction_eq_refused hlive (hwrite.trans (if_neg (ne_true_of_eq_false hpg)) |>.trans ?_) hfault rfl⟩
  exact startErase_of_partial hpartial

/-- Settles O25, by the lock, the stage and the key. -/
theorem keyWriteRunsHandshake : Obligations.KeyWriteRunsHandshake := by
  unfold Obligations.KeyWriteRunsHandshake
  intro s v hlive
  refine ⟨if s.lock then nextKeyStage v s else s.keyStage, s.lock && !keyUnlocks v s, transaction_eq_next hlive rfl hlive,
    fun hlock => ?_, fun hlock hstage => ?_, fun hlock hstage hkey => ?_, fun hlock hstage hkey => ?_, fun hlock hbad => ?_⟩
  · simp [hlock]
  · simp [hlock, nextKeyStage, keyUnlocks, hstage]
  · simp [hlock, nextKeyStage, keyUnlocks, hstage, hkey]
  · simp [hlock, nextKeyStage, keyUnlocks, hstage, hkey]
  · have hstays : nextKeyStage v s = badKeyStage s.cfg ∧ keyUnlocks v s = false := by
      obtain ⟨hstage, hkey⟩ | ⟨hstage, hkey⟩ := hbad
      · simp [nextKeyStage, keyUnlocks, hstage, hkey]
      · simp [nextKeyStage, keyUnlocks, hstage, hkey]
    obtain ⟨hnext, hlocked⟩ := hstays
    rw [if_pos hlock, hnext, hlock, hlocked]
    exact ⟨rfl, fun hpolicy => by rw [badKeyStage, hpolicy], fun hpolicy => by rw [badKeyStage, hpolicy]⟩

/-- Settles O26: the value logged is the draw taken. -/
theorem keyReadReturnsADraw : Obligations.KeyReadReturnsADraw := by
  unfold Obligations.KeyReadReturnsADraw
  intro s hlive
  exact transaction_eq_next hlive rfl hlive

/-- Settles O27: each of the four transactions is logged and then refused. -/
theorem unmodelledRegistersStop : Obligations.UnmodelledRegistersStop := by
  unfold Obligations.UnmodelledRegistersStop
  intro s v hlive
  obtain ⟨hfault, -⟩ := live_iff.mp hlive
  exact ⟨transaction_eq_refused hlive rfl hfault rfl, transaction_eq_refused hlive rfl hfault rfl,
    transaction_eq_refused hlive rfl hfault rfl, transaction_eq_refused hlive rfl hfault rfl⟩

/-- Settles O28: the value logged is the fuse's. -/
theorem fuseReadReturnsCapacity : Obligations.FuseReadReturnsCapacity := by
  unfold Obligations.FuseReadReturnsCapacity
  intro s hlive
  exact transaction_eq_next hlive rfl hlive

end Sys2Proof.Machine
end

section
/-! SUPPORT. What each form of an array access does (40_register_bus.md R147 to R154). -/

namespace Sys2Proof.Machine

/-! ### The descriptors of the array (R110) -/

theorem logArrayRead_toNat (o : BitVec 26) (value : Option Word) (s : State) :
    s.logArrayRead o.toNat value =
      { s with history := s.history ++ [.bus (0x10000000 ||| o.setWidth 32) o.toNat value] } := by
  rw [State.logArrayRead, BitVec.ofNat_toNat, BitVec.setWidth_eq]
  rfl

theorem logArrayWrite_toNat (o : BitVec 26) (w : Word) (s : State) :
    s.logArrayWrite o.toNat w =
      { s with history := s.history ++ [.bus (0x98000000 ||| o.setWidth 32) o.toNat (some w)] } := by
  rw [State.logArrayWrite, BitVec.ofNat_toNat, BitVec.setWidth_eq]
  rfl

section
variable {s : State} {o : Nat} {w : Word}

/-! ### Array reads -/

theorem arrayValue_of_op (hop : s.op ≠ .none) : s.arrayValue o = drawByte (s.drawAt 0) := by
  cases h : s.op <;> simp_all [State.arrayValue]

theorem afterReadDraw_of_op (hop : s.op ≠ .none) : s.afterReadDraw = s.afterDraws 1 := by
  cases h : s.op <;> simp_all [State.afterReadDraw]

/-- An array read while an operation is in flight returns a draw (R148). -/
theorem busArrayRead_of_op (hop : s.op ≠ .none) (ho : o < s.cfg.arraySize) :
    busArrayRead o s = (s.logArrayRead o (some ((drawByte (s.drawAt 0)).setWidth 32))).afterDraws 1 := by
  rw [busArrayRead, if_pos ho, arrayValue_of_op hop, afterReadDraw_of_op (by simpa using hop)]

/-! ### Array writes -/

theorem arrayWriteEffect_of_out_of_range (h : o % 4 ≠ 0 ∨ s.cfg.arraySize < o + 4) :
    arrayWriteEffect o w s = s.refuse .arrayRange := if_pos h

theorem arrayWriteEffect_of_unarmed (haligned : o % 4 = 0) (hin : o + 4 ≤ s.cfg.arraySize) (hpg : s.pg = false) :
    arrayWriteEffect o w s = unarmedWrite o w s := by
  rw [arrayWriteEffect, if_neg (by omega), if_pos hpg]

theorem arrayWriteEffect_of_blocked (haligned : o % 4 = 0) (hin : o + 4 ≤ s.cfg.arraySize) (hpg : s.pg = true)
    (hblocked : s.lock = true ∨ s.op ≠ .none) : arrayWriteEffect o w s = s.refuse .armedButBlocked := by
  rw [arrayWriteEffect, if_neg (by omega), if_neg (by simp [hpg]), if_pos hblocked]

section
variable (hin : o + 4 ≤ s.cfg.arraySize) (hpg : s.pg = true) (hlock : s.lock = false) (hop : s.op = .none)
include hin hpg hlock hop

theorem arrayWriteEffect_of_lowWord (hlow : o % 8 = 0) :
    arrayWriteEffect o w s = { s with latch := some ⟨o, w⟩ } := by
  rw [arrayWriteEffect, if_neg (by omega), if_neg (by simp [hpg]), if_neg (by simp [hlock, hop]), if_pos hlow]

theorem arrayWriteEffect_of_highWord (hhigh : o % 8 = 4) : arrayWriteEffect o w s = highWordWrite o w s := by
  rw [arrayWriteEffect, if_neg (by omega), if_neg (by simp [hpg]), if_neg (by simp [hlock, hop]), if_neg (by omega)]

end

/-- A high word without its low word is refused (R153). -/
theorem highWordWrite_of_unpaired (h : ∀ l, s.latch = some l → l.offset + 4 ≠ o) :
    highWordWrite o w s = s.refuse .unpairedHighWord := by
  obtain ⟨hrefused, -⟩ | ⟨l, hlatch, hoffset, -⟩ := highWordWrite_cases o w s
  · exact hrefused
  · exact absurd hoffset (h l hlatch)

/-- A high word after its low word starts their program (R151). -/
theorem highWordWrite_of_paired {lo : Word} (h : s.latch = some ⟨o, lo⟩) :
    highWordWrite (o + 4) w s = startProgram o lo w s := by
  rw [highWordWrite, h]
  exact if_pos rfl

/-- The high word of the latched double-word, armed, unlocked and idle, goes to the start of the program (R150, R151). -/
theorem busArrayWrite_of_paired {lo : Word} (hpg : s.pg = true) (hlock : s.lock = false) (hop : s.op = .none)
    (hlatch : s.latch = some ⟨o, lo⟩) (haligned : o % 8 = 0) (hin : o + 8 ≤ s.cfg.arraySize) :
    busArrayWrite (o + 4) w s = startProgram o lo w (s.logArrayWrite (o + 4) w) :=
  (arrayWriteEffect_of_highWord (s := s.logArrayWrite (o + 4) w) hin hpg hlock hop (by omega)).trans
    (highWordWrite_of_paired (s := s.logArrayWrite (o + 4) w) hlatch)

theorem unarmedWrite_of_ignore (h : s.cfg.unarmedWritePolicy = .ignore) :
    unarmedWrite o w s = { s.afterDraws 1 with flags := drawFlags (s.drawAt 0) } := by
  rw [unarmedWrite, h]

theorem unarmedWrite_of_busFault (h : s.cfg.unarmedWritePolicy = .busFault) :
    unarmedWrite o w s = s.recordFault o w := by
  rw [unarmedWrite, h]

end

end Sys2Proof.Machine
end

section
/-! PROOFS. The array on the bus (40_register_bus.md R147 to R154), and the starts of R140. -/

namespace Sys2Proof.Machine

/-- Settles O24: both starts take the draw in the state that the transaction left before it. -/
theorem startWithFlagsIsADraw : Obligations.StartWithFlagsIsADraw := by
  unfold Obligations.StartWithFlagsIsADraw
  constructor
  · intro s v hlive hlock hop hflags hstrt hv hper hpg hwhole
    refine transaction_eq_next hlive ?_ hlive
    rw [busCrWrite_of_start hlock hop hstrt hv hper, if_neg (ne_true_of_eq_false hpg)]
    exact startErase_of_flag hflags hop hwhole
  · intro s a o lo hi hlive hlock hop hflags hpg hlatch ha ho hin
    refine transaction_eq_next hlive ?_ hlive
    have hwrite := busArrayWrite_of_paired (w := hi) hpg hlock hop hlatch ho hin
    rw [← ha, startProgram_of_flag (s := s.logArrayWrite a.toNat hi) hflags hop, logArrayWrite_toNat] at hwrite
    exact hwrite

/-- Settles O29: the byte logged is the stored one. -/
theorem arrayReadReturnsByte : Obligations.ArrayReadReturnsByte := by
  unfold Obligations.ArrayReadReturnsByte
  intro s o hlive ho hop
  refine transaction_eq_next hlive ?_ hlive
  rw [busArrayRead_of_no_op hop ho]
  exact logArrayRead_toNat o _ s

/-- Settles O30: the byte logged is a draw. -/
theorem arrayReadWhileBusyIsADraw : Obligations.ArrayReadWhileBusyIsADraw := by
  unfold Obligations.ArrayReadWhileBusyIsADraw
  intro s o hlive ho hop
  refine transaction_eq_next hlive ?_ hlive
  rw [busArrayRead_of_op hop ho, logArrayRead_toNat]
  rfl

/-- Settles O31: the transaction is logged, and the first of its conditions that fails refuses it. -/
theorem arrayAccessWithoutMeaningStops : Obligations.ArrayAccessWithoutMeaningStops := by
  unfold Obligations.ArrayAccessWithoutMeaningStops
  refine ⟨fun s o hlive ho => ?_, fun s o w hlive ho => ?_, fun s o w hlive haligned hin hpg hblocked => ?_,
    fun s o w hlive hhigh hin hpg hlock hop hlatch => ?_⟩
  all_goals
    obtain ⟨hfault, -⟩ := live_iff.mp hlive
    refine transaction_eq_refused hlive ?_ hfault rfl
  · rw [busArrayRead, if_neg (Nat.not_lt.mpr ho), logArrayRead_toNat]
    rfl
  · rw [busArrayWrite, logArrayWrite_toNat]
    exact arrayWriteEffect_of_out_of_range ho
  · rw [busArrayWrite, logArrayWrite_toNat]
    exact arrayWriteEffect_of_blocked haligned hin hpg hblocked
  · rw [busArrayWrite, logArrayWrite_toNat]
    exact Eq.trans (arrayWriteEffect_of_highWord hin hpg hlock hop hhigh) (highWordWrite_of_unpaired hlatch)

/-- Settles O32: the low word replaces the latch. -/
theorem lowWordIsLatched : Obligations.LowWordIsLatched := by
  unfold Obligations.LowWordIsLatched
  intro s o w hlive hpg hlock hop hlow hin
  refine transaction_eq_next hlive ?_ hlive
  rw [busArrayWrite, logArrayWrite_toNat]
  exact arrayWriteEffect_of_lowWord hin hpg hlock hop hlow

/-- Settles O33: the latch has the low word of the high word's double-word. -/
theorem highWordStartsProgram : Obligations.HighWordStartsProgram := by
  unfold Obligations.HighWordStartsProgram
  intro s a o lo hi hlive hpg hlock hop hflags hlatch ha ho hin
  refine transaction_eq_next hlive ?_ hlive
  have hwrite := busArrayWrite_highWord lo hi hlock hop hpg hflags hlatch ho hin
  rw [← ha, logArrayWrite_toNat] at hwrite
  exact hwrite

/-- Settles O34, by the policy. -/
theorem unarmedWriteFollowsPolicy : Obligations.UnarmedWriteFollowsPolicy := by
  unfold Obligations.UnarmedWriteFollowsPolicy
  intro s o w hlive hpg haligned hin
  constructor
  · intro hpolicy
    refine ⟨flagsOfWord (s.drawAt 0), transaction_eq_next hlive ?_ hlive, fun i hi => flagsOfWord_getLsbD _ hi,
      flagsOfWord_getLsbD_ten _⟩
    rw [busArrayWrite, logArrayWrite_toNat]
    exact Eq.trans (arrayWriteEffect_of_unarmed haligned hin hpg) (unarmedWrite_of_ignore hpolicy)
  · intro hpolicy
    refine transaction_eq_fault (r := ⟨o.toNat, w⟩) hlive ?_ rfl
    rw [busArrayWrite, logArrayWrite_toNat]
    exact Eq.trans (arrayWriteEffect_of_unarmed haligned hin hpg) (unarmedWrite_of_busFault hpolicy)

end Sys2Proof.Machine
end

section
/-! SUPPORT. The steps of ERASE up to the CR write that starts a page (43_erase.md R210, 41_sequencer.md R178, R179). -/

namespace Sys2Proof.Machine

theorem page_pos {c : Config} (h : c.Admissible) : 0 < c.page := by
  simp only [Config.Admissible, Config.admissible, Bool.and_eq_true, decide_eq_true_eq] at h
  tauto

/-! ### The CR value that starts an erase (R103) -/

section
variable (c p : Word)

theorem eraseCr_per : (eraseCr c p).getLsbD 1 = true := by simp [eraseCr, crPer]

theorem eraseCr_strt : (eraseCr c p).getLsbD 16 = true := by simp [eraseCr, crStrt]

/-- The page index leaves PG as it was read. -/
theorem eraseCr_pg : (eraseCr c p).getLsbD 0 = c.getLsbD 0 := by simp [eraseCr, crPnbMask, crPer, crStrt]

/-- A page index of six bits leaves LOCK as it was read. -/
theorem eraseCr_lock (hp : p.toNat ≤ 63) : (eraseCr c p).getLsbD 31 = c.getLsbD 31 := by
  have hbit : p[28] = false := by
    rw [BitVec.getElem_eq_testBit_toNat]
    exact Nat.testBit_lt_two_pow (by omega)
  simp [eraseCr, crPnbMask, crPer, crStrt, hbit]

end

/-! ### A command that stops -/

/-- A transaction that stopped the machine is the end of the step (R182). -/
theorem andThen_of_not_live {s : State} {k : State → State} (h : s.live = false) : s.andThen k = s := by
  simp [State.andThen, h]

theorem sequencing_of_not_live {s : State} (h : s.live = false) : s.sequencing = false :=
  Bool.eq_false_iff.mpr fun hgoes => by simp [live_of_sequencing hgoes] at h

/-- A command given to a quiet machine answers with the outcome of the state in which its run stops. -/
theorem Reaches.exec_eq_outcome {i : Instr} {c : Command} {n : Nat} {s t u : State} (hi : commandOf i = some c)
    (hs : Quiet s) (h : Reaches n (s.accept c) t) (hn : n ≤ commandBound s.cfg c) (hend : sequencerTurn (fsmTurn t) = u)
    (hstop : u.live = false) : exec i s = outcome u := by
  obtain ⟨hready, hop⟩ := hs
  have hrun := h.runSequencer_eq hn (sequencing_of_not_live (hend ▸ hstop))
  rw [fsmTurn_of_no_op (s := s.accept c) hop, hend] at hrun
  rw [exec_of_command s hi, runCommand_of_ready hready, hrun]

/-! ### ERASE at a boundary -/

/-- The run of ERASE. -/
def eraseRun (a b : Word) (pos : Nat) (phase : Phase) (g : Regs) : Run := ⟨.erase a b, pos, phase, g⟩

/-- ERASE before the transaction that `phase` names. -/
def State.erasing (a b : Word) (pos : Nat) (phase : Phase) (g : Regs) (es : List Event) (s : State) : State :=
  s.withTrace (eraseRun a b pos phase g) es

/-- The registers of ERASE after its busy check (R179, R210). -/
def eraseRegs (a b : Word) (s : State) : Regs :=
  { Regs.start (.erase a b) with rs := BitVec.ofNat 32 (pageFloor s.cfg a.toNat), s := s.srWord }

section
variable {s : State} {a b : Word} {unit pos : Nat} {phase : Phase} {g : Regs} {es : List Event}

/-- With no operation in flight, a boundary of ERASE is followed by its step. -/
theorem boundary_erasing (hop : s.op = .none) :
    sequencerTurn (fsmTurn (s.erasing a b pos phase g es)) =
      sequencerStep (eraseRun a b pos phase g) (s.erasing a b pos phase g es) := by
  rw [fsmTurn_of_no_op (s := s.erasing a b pos phase g es) hop]
  rfl

/-- The page-floored start names the page of the offset (R111, R210). -/
theorem firstPage_eraseRegs (a b : Word) (s : State) : firstPage s.cfg (eraseRegs a b s) = a.toNat / s.cfg.page := by
  have hfloor : pageFloor s.cfg a.toNat < 2 ^ 32 := (Nat.div_mul_le_self _ _).trans_lt a.isLt
  change (BitVec.ofNat 32 (pageFloor s.cfg a.toNat)).toNat / s.cfg.page = _
  rw [BitVec.toNat_ofNat, Nat.mod_eq_of_lt hfloor, pageFloor]
  obtain hzero | hpos := Nat.eq_zero_or_pos s.cfg.page
  · simp [hzero]
  · exact Nat.mul_div_cancel _ hpos

/-- The busy check of ERASE with nothing in flight: its first page follows (R179, R210). -/
theorem boundary_busyCheck_erase (hop : s.op = .none) (hb : b ≠ 0) :
    sequencerTurn (fsmTurn (s.withRun (startRun (.erase a b) pos .busy))) =
      s.erasing a b (pos + 1) (.clearBefore (a.toNat / s.cfg.page)) (eraseRegs a b s)
        (s.history ++ [registerEvent false srOffset s.srWord]) := by
  have hidle : ¬ s.bsy = true := by simp [State.bsy, hop]
  rw [boundary_withRun _ hop, ← firstPage_eraseRegs a b s]
  exact (if_neg hidle).trans (if_neg hb)

/-- Before a page of six bits the flags are cleared (R210 step 1). -/
theorem boundary_clearBefore_erase (hop : s.op = .none) (hunit : unit ≤ 63) :
    sequencerTurn (fsmTurn (s.erasing a b pos (.clearBefore unit) g es)) =
      { s with flags := 0 }.erasing a b (pos + 1) .modeRead { g with p := BitVec.ofNat 32 unit }
        (es ++ [registerEvent true srOffset srClear]) := by
  rw [boundary_erasing hop]
  refine (if_neg (Nat.not_lt.mpr hunit)).trans ?_
  simp only [busSrWrite, clearFlags_srClear]
  rfl

theorem boundary_modeRead_erase (hop : s.op = .none) :
    sequencerTurn (fsmTurn (s.erasing a b pos .modeRead g es)) =
      s.erasing a b (pos + 1) .modeWrite { g with c := s.crWord } (es ++ [registerEvent false crOffset s.crWord]) := by
  rw [boundary_erasing hop]
  rfl

/-- ERASE of a span in the array, on a quiet block, comes to the CR write that starts its first page (R210). -/
theorem reaches_modeWrite_erase (hinv : StateInv s) (hquiet : Quiet s) (hb : b ≠ 0) (hpage : a.toNat / s.cfg.page ≤ 63)
    (hin : a.toNat / s.cfg.page * s.cfg.page + b.toNat * s.cfg.page ≤ s.capacity) :
    ∃ pos g es, g.c = s.crWord ∧ g.p.toNat = a.toNat / s.cfg.page ∧
      Reaches 4 (s.accept (.erase a b)) ({ s.discovered with flags := 0 }.erasing a b pos .modeWrite g es) := by
  obtain ⟨hadmissible, -, -, -, -, hcache⟩ := stateInv_iff.mp hinv
  obtain ⟨⟨hlive, -⟩, hop⟩ := hquiet
  rw [capacity_eq_arraySize hcache] at hin
  have hchecked : eraseChecks s.cfg s.discovered.chipSizeCache a b = .busyCheck := by
    have hcount : b.toNat ≠ 0 := fun h => hb (BitVec.eq_of_toNat_eq h)
    have hlength : b.toNat * s.cfg.page ≠ 0 := Nat.mul_ne_zero hcount (page_pos hadmissible).ne'
    rw [eraseChecks, discovered_chipSizeCache_toNat hcache, pageFloor, inRange_of_le hlength hin, if_pos rfl]
  obtain ⟨pos, hstart⟩ := reaches_discovered (c := .erase a b) hop hlive rfl (.inl ⟨hchecked, rfl⟩)
    fun h => stepDiscover_startRun_of_busyCheck h (by rw [discovered_of_cached h] at hchecked; exact hchecked)
  obtain ⟨cache, es, hdiscovered⟩ := exists_discovered_eq s
  rw [hdiscovered] at hstart ⊢
  refine ⟨_, _, _, ?_, ?_, ((hstart.trans (reaches_of_turn (boundary_busyCheck_erase hop hb) hlive)).trans
    (reaches_of_turn (boundary_clearBefore_erase hop hpage) hlive)).trans
    (reaches_of_turn (boundary_modeRead_erase hop) hlive)⟩
  · rfl
  · exact Nat.mod_eq_of_lt (hpage.trans_lt (by decide))

/-- With PG still set, the CR write that starts a page is refused, and the run stays before it (R139, R182). -/
theorem boundary_modeWrite_of_bothModes (hop : s.op = .none) (hlock : s.lock = false) (hpg : s.pg = true)
    (hc : g.c = s.crWord) (hp : g.p.toNat ≤ 63) :
    sequencerTurn (fsmTurn (s.erasing a b pos .modeWrite g es)) =
      State.refuse .bothModes
        { (s.erasing a b pos .modeWrite g es).logRegister true crOffset (some (eraseCr g.c g.p)) with
          pg := true, per := true, pnb := crPageIndex (eraseCr g.c g.p) } := by
  have hwrite := busCrWrite_of_start (s := s.erasing a b pos .modeWrite g es) (v := eraseCr g.c g.p) hlock hop
    (eraseCr_strt _ _) (by rw [eraseCr_lock _ _ hp, hc, crWord_getLsbD s (by decide), ← hlock]; rfl) (eraseCr_per _ _)
  rw [if_pos (by rw [eraseCr_pg, hc, crWord_getLsbD s (by decide), ← hpg]; rfl)] at hwrite
  rw [boundary_erasing hop]
  exact (congrArg (State.andThen · _) hwrite).trans (andThen_of_not_live (refuse_live _ _))

end

end Sys2Proof.Machine
end

section
/-! PROOFS. ERASE with PG set (40_register_bus.md R139, 43_erase.md R210). -/

namespace Sys2Proof.Machine

/-- Settles O60: ERASE comes to the CR write of its first page, which keeps PG beside PER and so is refused. -/
theorem eraseInProgramModeStops : Obligations.EraseInProgramModeStops := by
  unfold Obligations.EraseInProgramModeStops
  intro s a b hinv hquiet hlock hpg hb hpage hin
  obtain ⟨⟨hlive, -⟩, hop⟩ := id hquiet
  obtain ⟨hfault, -⟩ := live_iff.mp hlive
  obtain ⟨pos, g, es, hc, hp, hreach⟩ := reaches_modeWrite_erase hinv hquiet hb hpage hin
  obtain ⟨cache, history, hdiscovered⟩ := exists_discovered_eq s
  rw [hdiscovered] at hreach
  have hend := boundary_modeWrite_of_bothModes
    (s := { s with chipSizeCache := cache, history := history, flags := 0 }) (a := a) (b := b) (pos := pos) (es := es)
    hop hlock hpg hc (hp.trans_le hpage)
  have hbound : 4 ≤ commandBound s.cfg (.erase a b) := by
    have hcount : 0 < b.toNat := Nat.pos_of_ne_zero fun h => hb (BitVec.eq_of_toNat_eq h)
    have hunits := Nat.le_mul_of_pos_right (s.cfg.eraseTimeout.toNat + 6) hcount
    simp only [commandBound]
    omega
  refine ⟨_, (hreach.exec_eq_outcome rfl hquiet hbound hend (refuse_live _ _)).trans (outcome_of_refused hfault rfl), rfl, ?_,
    rfl, rfl, hop⟩
  simp [State.erasing, State.withTrace]

end Sys2Proof.Machine
end

section
/-! SUPPORT. A command that discovers the capacity of a busy block and comes to its busy check (41_sequencer.md R174, R179). -/

namespace Sys2Proof.Machine

/-- The capacity is what discovery leaves in the cache (R174, R180). -/
theorem discovered_chipSizeCache_toNat_eq_capacity (s : State) : s.discovered.chipSizeCache.toNat = s.capacity := by
  by_cases hcache : s.chipSizeCache = 0
  · rw [discovered_of_unknown hcache, State.capacity, if_pos hcache]
    exact chipSizeOf_toNat s.cfg
  · rw [discovered_of_cached hcache, State.capacity, if_neg hcache]

theorem inRange_discovered {s : State} {o len : Nat} (hstart : o < s.capacity) (hend : o + len ≤ s.capacity) :
    inRange s.discovered.chipSizeCache.toNat o len = true := by
  simp [inRange, discovered_chipSizeCache_toNat_eq_capacity, hstart, hend]

section
variable {s : State} {c : Command}

/-- BUSY_CHECK of a busy block: the command ends with the SR read (R179). -/
theorem stepBusy_of_busy {r : Run} (hop : s.op ≠ .none) : stepBusy r s = (busSrRead s).raiseInvalidArgument :=
  if_pos (decide_eq_true hop)

section
variable {n : Nat} (hop : s.op ≠ .none)
  (hfirst : sequencerTurn (s.accept c) = stepDiscover (startRun c 0 .first) (s.accept c))
  (hchecked : afterDiscover s.cfg s.discovered.chipSizeCache c = .busyCheck)
include hop hfirst hchecked

/-- With the capacity cached, the busy check is the command's only step. -/
theorem runSequencer_of_busy_cached (hcache : s.chipSizeCache ≠ 0) :
    runSequencer n (s.accept c) = (busSrRead s).raiseInvalidArgument := by
  rw [discovered_of_cached hcache] at hchecked
  have hend : sequencerTurn (s.accept c) = (busSrRead s).raiseInvalidArgument :=
    hfirst.trans ((stepDiscover_of_busyCheck (s := s.accept c) (r := startRun c 0 .first) hcache hchecked).trans
      (stepBusy_of_busy (s := s.accept c) hop))
  rw [runSequencer_of_not_sequencing (hend ▸ rfl), hend]

/-- Otherwise the fuse read comes first, and at the boundary after it the operation is not completed. -/
theorem runSequencer_of_busy_unknown (hlive : s.live = true) (hcache : s.chipSizeCache = 0)
    (hdraw : drawBit (s.drawAt 0) = false) :
    runSequencer (n + 1) (s.accept c) = (busSrRead (s.discovered.afterDraws 1)).raiseInvalidArgument := by
  rw [discovered_of_unknown hcache] at hchecked ⊢
  have hturn : sequencerTurn (s.accept c) = (discoverCapacity s).withRun (startRun c 1 .busy) :=
    hfirst.trans ((stepDiscover_of_unknown (s := s.accept c) hcache).trans
      (stepFuse_goesOn (s := s.accept c) (r := startRun c 0 .first) (.inl ⟨hchecked, rfl⟩)))
  have hgoes : (sequencerTurn (s.accept c)).sequencing = true := hturn ▸ hlive
  have hwait := fsmTurn_of_wait (s := (discoverCapacity s).withRun (startRun c 1 .busy)) hlive hop hdraw
  have hend : sequencerTurn (((discoverCapacity s).withRun (startRun c 1 .busy)).afterDraws 1) =
      (busSrRead ((discoverCapacity s).afterDraws 1)).raiseInvalidArgument := stepBusy_of_busy hop
  rw [runSequencer_succ_of_sequencing hgoes, hturn, hwait, runSequencer_of_not_sequencing (hend ▸ rfl), hend]

end

/-- A command that comes to its busy check while the operation is in flight is refused there (R179). -/
theorem exec_of_busy {i : Instr} (hi : commandOf i = some c) (hready : Ready s) (hop : s.op ≠ .none)
    (hdraw : s.chipSizeCache = 0 → drawBit (s.drawAt 0) = false)
    (hfirst : sequencerTurn (s.accept c) = stepDiscover (startRun c 0 .first) (s.accept c))
    (hchecked : afterDiscover s.cfg s.discovered.chipSizeCache c = .busyCheck) (hbound : commandBound s.cfg c ≠ 0) :
    exec i s = .next (busSrRead (s.discovered.afterDraws s.discoverDraws)).raiseInvalidArgument := by
  have hrun : runSequencer (commandBound s.cfg c) (s.accept c) =
      (busSrRead (s.discovered.afterDraws s.discoverDraws)).raiseInvalidArgument := by
    by_cases hcache : s.chipSizeCache = 0
    · rw [← Nat.succ_pred_eq_of_ne_zero hbound, State.discoverDraws, if_pos hcache]
      exact runSequencer_of_busy_unknown hop hfirst hchecked hready.left hcache (hdraw hcache)
    · rw [runSequencer_of_busy_cached hop hfirst hchecked hcache, State.discoverDraws, if_neg hcache,
        discovered_of_cached hcache]
      simp [State.afterDraws]
  have hlive : (busSrRead (s.discovered.afterDraws s.discoverDraws)).raiseInvalidArgument.live = true := by
    obtain ⟨cache, es, hdiscovered⟩ := exists_discovered_eq s
    rw [hdiscovered]
    exact hready.left
  rw [exec_of_command s hi, runCommand_of_ready hready, hrun, outcome_of_live hlive]

/-- What the refusal leaves, written out: the sequencer is idle again. -/
theorem busyRefusal_eq (hidle : s.seq = .idle) (n : Nat) :
    (busSrRead (s.discovered.afterDraws n)).raiseInvalidArgument =
      { s.discovered.afterDraws n with
        history := s.discovered.history ++ [.bus 0x08000010 0x10 (some s.srWord)]
        resp := some ⟨.invalidArgument, 0, []⟩ } := by
  obtain ⟨cache, es, hdiscovered⟩ := exists_discovered_eq s
  rw [hdiscovered, State.raiseInvalidArgument, State.respond, ← hidle]
  rfl

end

end Sys2Proof.Machine
end

section
/-! PROOFS. ERASE and WRITE of a busy block (41_sequencer.md R179). -/

namespace Sys2Proof.Machine

/-- Settles O45: good arguments lead both commands to the busy check. -/
theorem busyBlockRefusesEraseAndWrite : Obligations.BusyBlockRefusesEraseAndWrite := by
  unfold Obligations.BusyBlockRefusesEraseAndWrite
  intro s hready hop hdraw
  rw [← busyRefusal_eq hready.right]
  constructor
  · intro a b hstart hend _
    have hchecked : eraseChecks s.cfg s.discovered.chipSizeCache a b = .busyCheck := if_pos (inRange_discovered hstart hend)
    exact exec_of_busy rfl hready hop hdraw rfl hchecked (Nat.succ_ne_zero _)
  · intro a d haligned hstart hend _
    have hchecked : writeChecks s.cfg s.discovered.chipSizeCache a (some d) = .busyCheck :=
      (if_neg (not_not.mpr haligned)).trans (if_pos (inRange_discovered hstart hend))
    exact exec_of_busy rfl hready hop hdraw rfl hchecked (Nat.succ_ne_zero _)

end Sys2Proof.Machine
end

section
/-! SUPPORT. The rule by which a command's run is proved: what its steps lead to, its run leads to (41_sequencer.md R172,
R181, R182). -/

namespace Sys2Proof.Machine

/-- Where a sequencer step leads: the machine has stopped, or the command has ended with `Q`, or it goes on as a run with
`J`. -/
inductive Leads (J : Run → State → Prop) (Q : State → Prop) (t : State) : Prop where
  | stops (hlive : t.live = false)
  | ends (hidle : t.seq = .idle) (hQ : Q t)
  | goesOn (r : Run) (hseq : t.seq = .running r) (hJ : J r t)

section
variable {J : Run → State → Prop} {Q : State → Prop} {r : Run} {s : State}

theorem Leads.mono {J' : Run → State → Prop} {Q' : State → Prop} (h : Leads J Q s) (hJ : ∀ r, J r s → J' r s)
    (hQ : Q s → Q' s) : Leads J' Q' s := by
  cases h with
  | stops hlive => exact .stops hlive
  | ends hidle h => exact .ends hidle (hQ h)
  | goesOn r hseq h => exact .goesOn r hseq (hJ r h)

/-- If there is nothing to go on with, the run is over. -/
theorem Leads.not_sequencing (h : Leads (fun _ _ => False) Q s) : s.sequencing = false := by
  cases h with
  | stops hlive => exact sequencing_of_not_live hlive
  | ends hidle _ => exact sequencing_of_idle hidle
  | goesOn _ _ hfalse => exact hfalse.elim

/-- After a transaction that may stop the machine (R182). -/
theorem leads_andThen {k : State → State} (hk : Leads J Q (k s)) : Leads J Q (s.andThen k) := by
  unfold State.andThen
  split
  case isTrue => exact hk
  case isFalse hstopped => exact .stops (by simpa using hstopped)

end

/-- If each sequencer step leads from `J` with one step more to `J`, and the flash FSM's turn keeps `J`, a run leads where its
steps lead. -/
theorem runSequencer_leads {J : Nat → Run → State → Prop} {Q : State → Prop}
    (hstep : ∀ n r s, J (n + 1) r s → Leads (J n) Q (sequencerStep r s)) (hfsm : ∀ n r s, J n r s → J n r (fsmTurn s))
    (n : Nat) {r : Run} {s : State} (hseq : s.seq = .running r) (hJ : J (n + 1) r s) : Leads (J 0) Q (runSequencer n s) := by
  induction n generalizing r s with
  | zero =>
    rw [runSequencer, sequencerTurn_of_running hseq]
    exact hstep 0 r s hJ
  | succ n ih =>
    have hturn := hstep (n + 1) r s hJ
    rw [← sequencerTurn_of_running hseq] at hturn
    cases hturn with
    | stops hlive =>
      rw [runSequencer_of_not_sequencing (sequencing_of_not_live hlive)]
      exact .stops hlive
    | ends hidle hQ =>
      rw [runSequencer_of_not_sequencing (sequencing_of_idle hidle)]
      exact .ends hidle hQ
    | goesOn r' hseq' hJ' =>
      cases hgoes : (sequencerTurn s).sequencing with
      | true =>
        rw [runSequencer_succ_of_sequencing hgoes]
        exact ih ((fsmTurn_seq _).trans hseq') (hfsm _ _ _ hJ')
      | false =>
        rw [runSequencer_of_not_sequencing hgoes]
        exact .stops (by simpa [State.sequencing, hseq'] using hgoes)

end Sys2Proof.Machine
end

section
/-! SUPPORT. How many sequencer steps a command has still to take (41_sequencer.md R173). -/

namespace Sys2Proof.Machine

/-! ### Discovery, and what comes after it -/

/-- The command is an ERASE or a WRITE, which alone start operations. -/
def Command.startsOperations : Command → Bool
  | .erase _ _ => true
  | .write _ _ => true
  | _ => false

theorem startsOperations_of_busyCheck {c : Config} {cache : Word} {cmd : Command}
    (h : afterDiscover c cache cmd = .busyCheck) : cmd.startsOperations = true := by
  cases cmd with
  | erase _ _ | write _ _ => rfl
  | read a b buffer =>
    change readChecks cache a b buffer = .busyCheck at h
    unfold readChecks at h
    (repeat' split at h) <;> cases h
  | init | unlock | lock | pageSize | chipSize => cases h

theorem not_startsOperations_of_byteReads {c : Config} {cache : Word} {cmd : Command}
    (h : afterDiscover c cache cmd = .byteReads) : cmd.startsOperations = false := by
  cases cmd with
  | erase a b =>
    change eraseChecks c cache a b = .byteReads at h
    unfold eraseChecks at h
    split at h <;> cases h
  | write a data =>
    change writeChecks c cache a data = .byteReads at h
    unfold writeChecks at h
    (repeat' split at h) <;> cases h
  | read _ _ _ | init | unlock | lock | pageSize | chipSize => rfl

/-- The first step of a command that discovers: a response, or the command's next transaction, in a step of its own if the fuse
had to be read (R172, R174, R175). -/
theorem leads_stepDiscover {J : Run → State → Prop} {Q : State → Prop} {r : Run} {s : State}
    (hrespond : ∀ t status value data, t = s ∨ t = discoverCapacity s → Leads J Q (t.respond status value data))
    (hbusy : ∀ cache, afterDiscover s.cfg cache r.cmd = .busyCheck →
      Leads J Q ((discoverCapacity s).goto r .busy r.regs) ∧ Leads J Q (stepBusy r s))
    (hbytes : ∀ cache, afterDiscover s.cfg cache r.cmd = .byteReads →
      Leads J Q ((discoverCapacity s).goto r .byteRead r.regs) ∧ Leads J Q (stepByteRead r s)) :
    Leads J Q (stepDiscover r s) := by
  by_cases hcache : s.chipSizeCache = 0
  · rw [stepDiscover_of_unknown hcache]
    unfold stepFuse
    split
    case h_1 => exact hrespond _ _ _ _ (.inr rfl)
    case h_2 hchecked => exact (hbusy _ hchecked).left
    case h_3 hchecked => exact (hbytes _ hchecked).left
  · obtain ⟨x, -, hx⟩ | ⟨hchecked, hx⟩ | ⟨hchecked, hx⟩ := stepDiscover_cases (r := r) hcache <;> rw [hx]
    · exact hrespond _ _ _ _ (.inl rfl)
    · exact (hbusy _ hchecked).right
    · exact (hbytes _ hchecked).right

/-- R106 spells the command's data. -/
def Command.Fits (cmd : Command) : Prop := ∀ a d, cmd = .write a (some d) → d.length < 2 ^ 32

/-- Data of 2^32 bytes or more lie in no capacity (R180, R220). -/
theorem writeChecks_of_long {c : Config} {cache a : Word} {d : List Byte} (h : 2 ^ 32 ≤ d.length) :
    writeChecks c cache a (some d) = .invalid := by
  have hrange : ¬ inRange cache.toNat a.toNat d.length = true := by
    simp only [inRange, Bool.and_eq_true, decide_eq_true_eq]
    omega
  unfold writeChecks
  dsimp only
  rw [if_neg hrange, ite_self]

/-- What R106 does not spell, the checks after discovery refuse in the command's first step. -/
theorem leads_stepDiscover_of_not_fits {J : Run → State → Prop} {r : Run} (s : State) (h : ¬ r.cmd.Fits) :
    Leads J (fun t => t.resp.isSome = true) (stepDiscover r s) := by
  simp only [Command.Fits, not_forall, not_lt] at h
  obtain ⟨a, d, hcmd, hlong⟩ := h
  have hinvalid (cache : Word) : afterDiscover s.cfg cache r.cmd = .invalid := by
    rw [hcmd]
    exact writeChecks_of_long hlong
  exact leads_stepDiscover (fun _ _ _ _ _ => .ends rfl rfl) (fun cache h => by simp [hinvalid, Checked.invalid] at h)
    (fun cache h => by simp [hinvalid, Checked.invalid] at h)

/-! ### The bound, phase by phase -/

/-- The steps of a page or double-word from the CR write that starts it to its poll's last read: the write, the two words of a
WRITE, and the poll reads but for the last. -/
def modeSteps (c : Config) (cmd : Command) : Nat :=
  match cmd with
  | .write _ _ => (pollBudget c cmd).toNat + 5
  | _ => (pollBudget c cmd).toNat + 3

/-- The pages or double-words of a command after number `unit`, which a WRITE holds in 32 bits (R55). -/
def unitsAfter (c : Config) (cmd : Command) (g : Regs) (unit : Nat) : Nat :=
  match cmd with
  | .erase _ b => firstPage c g + b.toNat - (unit + 1)
  | .write _ (some bytes) => doubleWords bytes.length - (unit % 2 ^ 32 + 1)
  | _ => 0

/-- The number of the page or double-word that the registers name. -/
def currentUnit (cmd : Command) (g : Regs) : Nat :=
  match cmd with
  | .write _ _ => g.u.toNat
  | _ => g.p.toNat

/-- The steps of the pages or double-words after number `unit`: three more than `modeSteps` for each. -/
def stepsAfter (c : Config) (cmd : Command) (g : Regs) (unit : Nat) : Nat :=
  unitsAfter c cmd g unit * (modeSteps c cmd + 3)

/-- The steps of the pages or double-words after the one that the registers name. -/
def laterSteps (c : Config) (cmd : Command) (g : Regs) : Nat := stepsAfter c cmd g (currentUnit cmd g)

/-- How many steps a run takes at most after its next one. -/
def Run.stepsLeft (c : Config) (r : Run) : Nat :=
  match r.phase with
  | .first => if r.cmd.startsOperations then commandBound c r.cmd else r.regs.n.toNat + 2
  | .busy => commandBound c r.cmd - 2
  | .clearBefore unit => stepsAfter c r.cmd r.regs unit + modeSteps c r.cmd + 2
  | .modeRead => laterSteps c r.cmd r.regs + modeSteps c r.cmd + 1
  | .modeWrite => laterSteps c r.cmd r.regs + modeSteps c r.cmd
  | .lowWord => laterSteps c r.cmd r.regs + (pollBudget c r.cmd).toNat + 4
  | .highWord => laterSteps c r.cmd r.regs + (pollBudget c r.cmd).toNat + 3
  | .poll k => laterSteps c r.cmd r.regs + ((pollBudget c r.cmd).toNat - k) + 3
  | .clearAfter => laterSteps c r.cmd r.regs + 2
  | .cleanupRead => laterSteps c r.cmd r.regs + 1
  | .cleanupWrite => laterSteps c r.cmd r.regs
  | .byteRead => r.regs.n.toNat - r.regs.buf.length - 1
  | .secondKey => 0
  | .lockWrite => 0

/-- A step leads run `r` to a response, or to a run of the same command with fewer steps left. -/
abbrev Descends (c : Config) (r : Run) (n : Nat) (t : State) : Prop :=
  Leads (fun r' _ => r'.cmd = r.cmd ∧ r'.stepsLeft c < n) (fun t => t.resp.isSome = true) t

section
variable {c : Config} {r : Run} {s : State} {n : Nat}

theorem descends_respond (status : Status) (value : Word) (data : List Byte) :
    Descends c r n (s.respond status value data) := .ends rfl rfl

theorem descends_goto {phase : Phase} {g : Regs} (h : Run.stepsLeft c ⟨r.cmd, r.pos + 1, phase, g⟩ < n) :
    Descends c r n (s.goto r phase g) := .goesOn _ rfl ⟨rfl, h⟩

/-- A page or double-word takes its share of the steps of all units from it on. -/
theorem descends_nextClear {unit units : Nat} (hunit : unitsAfter c r.cmd r.regs unit < units)
    (hn : units * (modeSteps c r.cmd + 3) ≤ n) : Descends c r n (s.goto r (.clearBefore unit) r.regs) := by
  have hshare := Nat.mul_le_mul_right (modeSteps c r.cmd + 3) hunit
  rw [Nat.succ_mul] at hshare
  exact descends_goto (by simp only [Run.stepsLeft, stepsAfter]; omega)

section
variable (hcfg : s.cfg = c)
include hcfg

/-- The poll is entered with its whole budget (R177). -/
theorem descends_enterPoll (h : laterSteps c r.cmd r.regs + (pollBudget c r.cmd).toNat + 3 ≤ n) :
    Descends c r n (enterPoll r s) := by
  unfold enterPoll
  rw [hcfg]
  split
  case isTrue => exact descends_goto (by simp only [Run.stepsLeft]; omega)
  case isFalse hbudget =>
    have hpositive : (pollBudget c r.cmd).toNat ≠ 0 := fun hzero => hbudget (BitVec.eq_of_toNat_eq hzero)
    exact descends_goto (by simp only [Run.stepsLeft]; omega)

/-- After its CR write an ERASE polls, and a WRITE sends its two words first (R210, R220). -/
theorem descends_afterModeWrite (h : laterSteps c r.cmd r.regs + modeSteps c r.cmd ≤ n) :
    Descends c r n (afterModeWrite r s) := by
  obtain ⟨cmd, pos, phase, g⟩ := r
  cases cmd with
  | write a data => exact descends_goto h
  | erase _ _ | read _ _ _ | init | unlock | lock | pageSize | chipSize => exact descends_enterPoll hcfg h

/-- The first page or double-word comes after the busy check, with all of the command's units still to do (R210, R220). -/
theorem descends_firstUnit (h : commandBound c r.cmd ≤ n + 2) : Descends c r n (firstUnit r s) := by
  unfold firstUnit
  rw [hcfg]
  split
  case h_1 a b hcmd =>
    split
    case isTrue => exact descends_respond _ _ _
    case isFalse hb =>
      have hcount : b.toNat ≠ 0 := fun hzero => hb (BitVec.eq_of_toNat_eq hzero)
      refine descends_nextClear (units := b.toNat) ?_ ?_
      · simp only [hcmd, unitsAfter]
        omega
      · simp only [hcmd, commandBound, Nat.mul_comm _ b.toNat] at h ⊢
        exact Nat.le_of_add_le_add_right h
  case h_2 a d hcmd =>
    split
    case isTrue => exact descends_respond _ _ _
    case isFalse hd =>
      refine descends_nextClear (units := doubleWords d.length) ?_ ?_
      · simp only [hcmd, unitsAfter, doubleWords, ceil8]
        omega
      · simp only [hcmd, commandBound, Nat.mul_comm _ (doubleWords d.length)] at h ⊢
        exact Nat.le_of_add_le_add_right h
  all_goals exact descends_respond _ _ _

/-- The next page or double-word comes after the cleanup, if there is one (R210 step 5, R220 step 6). -/
theorem descends_nextUnit (hfits : r.cmd.Fits) :
    Descends c r (laterSteps c r.cmd r.regs) (nextUnit r s) := by
  unfold nextUnit
  rw [hcfg]
  split
  case isTrue => exact descends_respond _ _ _
  case isFalse =>
    split
    case h_1 a b hcmd =>
      split
      case isTrue hmore =>
        refine descends_nextClear (units := unitsAfter c r.cmd r.regs (currentUnit r.cmd r.regs)) ?_ le_rfl
        simp only [hcmd, unitsAfter, currentUnit]
        omega
      case isFalse => exact descends_respond _ _ _
    case h_2 a d hcmd =>
      split
      case isTrue hmore =>
        have hlength := hfits a d hcmd
        refine descends_nextClear (units := unitsAfter c r.cmd r.regs (currentUnit r.cmd r.regs)) ?_ le_rfl
        simp only [hcmd, unitsAfter, currentUnit, doubleWords, ceil8] at hmore ⊢
        omega
      case isFalse => exact descends_respond _ _ _
    all_goals exact descends_respond _ _ _

end

theorem descends_stepBusy (h : commandBound s.cfg r.cmd ≤ n + 2) : Descends s.cfg r n (stepBusy r s) := by
  unfold stepBusy
  split
  case isTrue => exact descends_respond _ _ _
  case isFalse =>
    have hcmd : ((floorStart s.cfg r).withStatus s.srWord).cmd = r.cmd := floorStart_cmd _ _
    have hunit := descends_firstUnit (s := busSrRead s) (r := (floorStart s.cfg r).withStatus s.srWord) (n := n) rfl
      (by rw [hcmd]; exact h)
    rwa [Descends, hcmd] at hunit

theorem descends_stepByteRead (h : r.regs.n.toNat - r.regs.buf.length - 1 ≤ n) : Descends c r n (stepByteRead r s) := by
  refine leads_andThen ?_
  dsimp only
  split
  case isTrue hmore =>
    refine descends_goto ?_
    simp only [Run.stepsLeft, List.length_append, List.length_singleton]
    omega
  case isFalse => exact descends_respond _ _ _

/-- The first step's bound is the command's, for READ and the commands without units that of its byte reads. -/
theorem descends_stepFirst (hphase : r.phase = .first) : Descends s.cfg r (r.stepsLeft s.cfg) (stepFirst r s) := by
  have hbound : 2 ≤ commandBound s.cfg r.cmd := by
    unfold commandBound
    split <;> omega
  have hdiscover : Descends s.cfg r (r.stepsLeft s.cfg) (stepDiscover r s) := by
    simp only [Run.stepsLeft, hphase]
    refine leads_stepDiscover (fun _ _ _ _ _ => descends_respond _ _ _) (fun _ hchecked => ?_) (fun _ hchecked => ?_)
    · rw [if_pos (startsOperations_of_busyCheck hchecked)]
      exact ⟨descends_goto (by simp only [Run.stepsLeft]; omega), descends_stepBusy (Nat.le_add_right _ _)⟩
    · rw [if_neg (by simp [not_startsOperations_of_byteReads hchecked])]
      exact ⟨descends_goto (by simp only [Run.stepsLeft]; omega), descends_stepByteRead (by omega)⟩
  unfold stepFirst
  split
  case h_5 hcmd => exact descends_goto (by simp [Run.stepsLeft, hphase, hcmd, Command.startsOperations])
  case h_6 hcmd => exact descends_goto (by simp [Run.stepsLeft, hphase, hcmd, Command.startsOperations])
  case h_7 => exact descends_respond _ _ _
  case h_8 => exact descends_respond _ _ _
  all_goals exact hdiscover

/-- The index of the page or double-word goes into its register (R210 step 1, R220 step 1). -/
theorem descends_stepClearBefore {unit : Nat} (h : stepsAfter c r.cmd r.regs unit + modeSteps c r.cmd + 1 < n) :
    Descends c r n (stepClearBefore unit r s) := by
  obtain ⟨cmd, pos, phase, g⟩ := r
  have hindex : (BitVec.ofNat 32 unit).toNat = unit % 2 ^ 32 := BitVec.toNat_ofNat _ _
  cases cmd with
  | erase a b =>
    obtain ⟨-, hstep⟩ | ⟨hunit, hstep⟩ := stepClearBefore_erase (r := ⟨.erase a b, pos, phase, g⟩) s rfl <;> rw [hstep]
    · exact .stops (refuse_live _ _)
    · refine descends_goto ?_
      change stepsAfter c (.erase a b) g (BitVec.ofNat 32 unit).toNat + modeSteps c (.erase a b) + 1 < n
      rwa [hindex, Nat.mod_eq_of_lt (by omega)]
  | write a data =>
    cases data with
    | none => exact descends_goto h
    | some d =>
      refine descends_goto ?_
      change stepsAfter c (.write a (some d)) g (BitVec.ofNat 32 unit).toNat + modeSteps c (.write a (some d)) + 1 < n
      rwa [hindex, stepsAfter, unitsAfter, Nat.mod_mod]
  | read _ _ _ | init | unlock | lock | pageSize | chipSize => exact descends_goto h

/-- A poll read goes on only within the budget (R177). -/
theorem descends_stepPoll {k : Nat} (h : Run.stepsLeft s.cfg ⟨r.cmd, r.pos, .poll k, r.regs⟩ ≤ n) :
    Descends s.cfg r n (stepPoll k r s) := by
  simp only [Run.stepsLeft] at h
  unfold stepPoll
  split
  case isTrue hmore =>
    refine descends_goto ?_
    change laterSteps s.cfg r.cmd r.regs + ((pollBudget s.cfg r.cmd).toNat - (k + 1)) + 3 < n
    omega
  case isFalse =>
    refine descends_goto ?_
    change laterSteps s.cfg r.cmd r.regs + 2 < n
    omega

/-- Each sequencer step of a command whose data R106 spells leaves fewer steps to take (R173). -/
theorem descends_sequencerStep (hfits : r.cmd.Fits) :
    Descends s.cfg r (r.stepsLeft s.cfg) (sequencerStep r s) := by
  have hcfg {f : State → State} (hf : BusOperation f) : (f s).cfg = s.cfg := (hf.frame s).cfg
  obtain ⟨cmd, pos, phase, g⟩ := r
  cases phase with
  | first => exact descends_stepFirst rfl
  | busy => exact descends_stepBusy (by simp only [Run.stepsLeft]; omega)
  | clearBefore unit => exact descends_stepClearBefore (Nat.lt_succ_self _)
  | modeRead => exact descends_goto (Nat.lt_succ_self _)
  | modeWrite => exact leads_andThen (descends_afterModeWrite (hcfg (.crWrite _)) le_rfl)
  | lowWord => exact leads_andThen (descends_goto (Nat.lt_succ_self _))
  | highWord => exact leads_andThen (descends_enterPoll (hcfg (.arrayWrite _ _)) le_rfl)
  | poll k => exact descends_stepPoll le_rfl
  | clearAfter => exact descends_goto (Nat.lt_succ_self _)
  | cleanupRead => exact descends_goto (Nat.lt_succ_self _)
  | cleanupWrite => exact leads_andThen (descends_nextUnit (hcfg (.crWrite _)) hfits)
  | secondKey => exact descends_respond _ _ _
  | lockWrite => exact leads_andThen (descends_respond _ _ _)
  | byteRead => exact descends_stepByteRead le_rfl

end

end Sys2Proof.Machine
end

section
/-! SUPPORT. A command's run ends within its bound (41_sequencer.md R173, R181). -/

namespace Sys2Proof.Machine

/-- The bound covers the steps that a command has to take after its first. -/
theorem stepsLeft_startRun_le (c : Config) (cmd : Command) :
    (startRun cmd 0 .first).stepsLeft c ≤ commandBound c cmd := by
  cases cmd <;> exact le_rfl

/-- The run is of a command, with less than `n` steps left after its next one. -/
def Within (c : Config) (cmd : Command) (n : Nat) (r : Run) (s : State) : Prop :=
  s.cfg = c ∧ r.cmd = cmd ∧ r.stepsLeft c < n

theorem within_step {c : Config} {cmd : Command} (hfits : cmd.Fits) (n : Nat) (r : Run) (s : State)
    (h : Within c cmd (n + 1) r s) :
    Leads (Within c cmd n) (fun t => t.resp.isSome = true) (sequencerStep r s) := by
  obtain ⟨rfl, rfl, hleft⟩ := h
  have hcfg := (surroundings_eq_iff.mp (sequencerStep_surroundings r s)).left
  exact (descends_sequencerStep hfits).mono (fun _ h => ⟨hcfg, h.left, by omega⟩) id

/-- A command's run, once it is accepted, stops the machine or answers within the command's bound (R173). -/
theorem runSequencer_ends (cmd : Command) (s : State) :
    Leads (fun _ _ => False) (fun t => t.resp.isSome = true) (runSequencer (commandBound s.cfg cmd) (s.accept cmd)) := by
  by_cases hfits : cmd.Fits
  · have hstart : Within s.cfg cmd (commandBound s.cfg cmd + 1) (startRun cmd 0 .first) (s.accept cmd) :=
      ⟨rfl, rfl, Nat.lt_succ_of_le (stepsLeft_startRun_le s.cfg cmd)⟩
    have hrun := runSequencer_leads (within_step hfits) (fun _ _ t h => ⟨(fsmTurn_cfg t).trans h.left, h.right⟩)
      (commandBound s.cfg cmd) rfl hstart
    exact hrun.mono (fun _ h => Nat.not_lt_zero _ h.right.right) id
  · have hturn : sequencerTurn (s.accept cmd) = stepDiscover (startRun cmd 0 .first) (s.accept cmd) := by
      cases cmd with
      | write a data => rfl
      | _ => simp [Command.Fits] at hfits
    have hfirst : Leads (fun _ _ => False) (fun t => t.resp.isSome = true) (sequencerTurn (s.accept cmd)) := by
      rw [hturn]
      exact leads_stepDiscover_of_not_fits _ hfits
    rwa [runSequencer_of_not_sequencing hfirst.not_sequencing]

/-- The outcome of a state is the state itself, or what is recorded in it. -/
theorem outcome_cases (s : State) :
    outcome s = .next s ∧ s.live = true ∨ (∃ o w t, outcome s = .fault (.busFault o w t)) ∨
      ∃ why t, outcome s = .refused (.recorded why t) := by
  cases hfault : s.fault with
  | some f => exact .inr (.inl ⟨_, _, _, outcome_of_fault hfault⟩)
  | none =>
    cases hrefused : s.refused with
    | some why => exact .inr (.inr ⟨_, _, outcome_of_refused hfault hrefused⟩)
    | none =>
      have hlive := live_iff.mpr ⟨hfault, hrefused⟩
      exact .inl ⟨outcome_of_live hlive, hlive⟩

end Sys2Proof.Machine
end

section
/-! PROOFS. Every command ends (41_sequencer.md R173, R181). -/

namespace Sys2Proof.Machine

/-- Settles O57: the run ends within its bound, with a response or a record. -/
theorem everyCommandEnds : Obligations.EveryCommandEnds := by
  unfold Obligations.EveryCommandEnds
  intro i c s hi hready
  rw [exec_of_command s hi, runCommand_of_ready hready]
  obtain ⟨hnext, hlive⟩ | hstopped := outcome_cases (runSequencer (commandBound s.cfg c) (s.accept c))
  · have hends := runSequencer_ends c s
    cases hends with
    | stops hdead => simp [hdead] at hlive
    | ends hidle hresp => exact .inl ⟨_, hnext, hidle, hresp⟩
    | goesOn _ _ hfalse => exact hfalse.elim
  · exact .inr hstopped

end Sys2Proof.Machine
end

section
/-! SUPPORT. What a command does to the cached capacity (41_sequencer.md R174, R175). -/

namespace Sys2Proof.Machine

/-- The command discovers the capacity before anything else (R175). -/
def Command.discovers : Command → Bool
  | .unlock | .lock | .pageSize | .chipSize => false
  | .init | .erase _ _ | .write _ _ | .read _ _ _ => true

/-! ### Steps that leave the cache -/

section
variable {r : Run} {s : State}

theorem EndsOrGoesOn.chipSizeCache {t : State} (h : EndsOrGoesOn r s t) : t.chipSizeCache = s.chipSizeCache := by
  cases h <;> rfl

theorem andThen_chipSizeCache {k : State → State} (hk : ∀ t, EndsOrGoesOn r t (k t)) (s : State) :
    (s.andThen k).chipSizeCache = s.chipSizeCache :=
  andThen_keeps (P := fun t => t.chipSizeCache = s.chipSizeCache) (fun t ht => (hk t).chipSizeCache.trans ht) rfl

theorem stepBusy_chipSizeCache : (stepBusy r s).chipSizeCache = s.chipSizeCache := by
  unfold stepBusy
  split
  · rfl
  · exact (firstUnit_endsOrGoesOn _ _).chipSizeCache

theorem stepClearBefore_chipSizeCache (unit : Nat) : (stepClearBefore unit r s).chipSizeCache = s.chipSizeCache := by
  unfold stepClearBefore
  (repeat' split) <;> rfl

theorem stepPoll_chipSizeCache (k : Nat) : (stepPoll k r s).chipSizeCache = s.chipSizeCache := by
  unfold stepPoll
  split <;> rfl

theorem stepByteRead_chipSizeCache : (stepByteRead r s).chipSizeCache = s.chipSizeCache := by
  have hends (t : State) : EndsOrGoesOn r t
      (if r.regs.buf.length + 1 < r.regs.n.toNat then
        t.goto r .byteRead { r.regs with buf := r.regs.buf ++ [s.arrayValue (r.regs.a.toNat + r.regs.buf.length)] }
      else t.respond .ok r.regs.n (r.regs.buf ++ [s.arrayValue (r.regs.a.toNat + r.regs.buf.length)])) := by
    split <;> constructor
  exact (andThen_chipSizeCache hends _).trans (busArrayRead_chipSizeCache _ _)

/-- Discovery leaves a capacity that is cached. -/
theorem stepDiscover_chipSizeCache_of_cached (h : s.chipSizeCache ≠ 0) :
    (stepDiscover r s).chipSizeCache = s.chipSizeCache := by
  obtain ⟨x, -, hx⟩ | ⟨-, hx⟩ | ⟨-, hx⟩ := stepDiscover_cases (r := r) h <;> rw [hx]
  · rfl
  · exact stepBusy_chipSizeCache
  · exact stepByteRead_chipSizeCache

theorem stepFirst_chipSizeCache (h : s.chipSizeCache ≠ 0 ∨ r.cmd.discovers = false) :
    (stepFirst r s).chipSizeCache = s.chipSizeCache := by
  unfold stepFirst
  cases hcmd : r.cmd with
  | unlock | lock | pageSize | chipSize => rfl
  | init | erase _ _ | write _ _ | read _ _ _ =>
    exact stepDiscover_chipSizeCache_of_cached (h.resolve_right (by simp [hcmd, Command.discovers]))

/-- Only the fuse read of a first step changes the cache (R174, R175). -/
theorem sequencerStep_chipSizeCache (h : s.chipSizeCache ≠ 0 ∨ r.cmd.discovers = false) :
    (sequencerStep r s).chipSizeCache = s.chipSizeCache := by
  have hbus {f : State → State} (hf : BusOperation f) : (f s).chipSizeCache = s.chipSizeCache :=
    (hf.frame s).chipSizeCache
  unfold sequencerStep
  cases r.phase with
  | first => exact stepFirst_chipSizeCache h
  | busy => exact stepBusy_chipSizeCache
  | clearBefore unit => exact stepClearBefore_chipSizeCache unit
  | modeRead | clearAfter | cleanupRead | secondKey => rfl
  | modeWrite => exact (andThen_chipSizeCache (afterModeWrite_endsOrGoesOn r) _).trans (hbus (.crWrite _))
  | lowWord => exact (andThen_chipSizeCache (r := r) (fun _ => .goesOn _ _) _).trans (hbus (.arrayWrite _ _))
  | highWord => exact (andThen_chipSizeCache (enterPoll_endsOrGoesOn r) _).trans (hbus (.arrayWrite _ _))
  | poll k => exact stepPoll_chipSizeCache k
  | cleanupWrite => exact (andThen_chipSizeCache (nextUnit_endsOrGoesOn r) _).trans (hbus (.crWrite _))
  | lockWrite => exact (andThen_chipSizeCache (r := r) (fun _ => .ends _ _ _) _).trans (hbus (.crWrite _))
  | byteRead => exact stepByteRead_chipSizeCache

end

/-! ### Runs that leave it, and the run that fills it -/

/-- A run goes on with the command it is of (R53). -/
theorem OneTransaction.leads {r : Run} {s t : State} (h : OneTransaction r s t) :
    Leads (fun r' _ => r'.cmd = r.cmd) (fun _ => True) t := by
  cases h with
  | stops _ hlive => exact .stops hlive
  | performs u _ _ hend =>
    obtain ⟨hidle, -⟩ | ⟨r', hseq, hcmd, -⟩ := hend.seq
    · exact .ends hidle trivial
    · exact .goesOn r' hseq hcmd
  | answers _ _ _ _ => exact .ends rfl trivial

/-- A run of the command, with the cache as given. -/
def CacheInRun (cmd : Command) (cache : Word) (r : Run) (s : State) : Prop := r.cmd = cmd ∧ s.chipSizeCache = cache

theorem cacheInRun_step {cmd : Command} {cache : Word} {r : Run} {s : State}
    (hcache : cache ≠ 0 ∨ cmd.discovers = false) (h : CacheInRun cmd cache r s) :
    Leads (CacheInRun cmd cache) (fun t => t.chipSizeCache = cache) (sequencerStep r s) := by
  obtain ⟨rfl, rfl⟩ := h
  have hkept := sequencerStep_chipSizeCache hcache
  exact (sequencerStep_oneTransaction r s).leads.mono (fun _ hcmd => ⟨hcmd, hkept⟩) fun _ => hkept

/-- A command that does not discover, or finds the capacity cached, leaves the cache (R175). -/
theorem runSequencer_chipSizeCache {cmd : Command} {s : State} (n : Nat)
    (hcache : s.chipSizeCache ≠ 0 ∨ cmd.discovers = false) (hlive : (runSequencer n (s.accept cmd)).live = true) :
    (runSequencer n (s.accept cmd)).chipSizeCache = s.chipSizeCache := by
  have hrun := runSequencer_leads (J := fun _ => CacheInRun cmd s.chipSizeCache) (fun _ _ _ => cacheInRun_step hcache)
    (fun _ _ t h => ⟨h.left, (fsmTurn_chipSizeCache t).trans h.right⟩) n (s := s.accept cmd) rfl ⟨rfl, rfl⟩
  cases hrun with
  | stops hdead => simp [hdead] at hlive
  | ends _ h => exact h
  | goesOn _ _ h => exact h.right

/-- Once the cache holds the fuse's capacity, no step changes it: a fuse read would find the same (R174). -/
theorem fuseCapacity_keptBySequencer (c : Config) :
    KeptBySequencer fun s => s.cfg = c ∧ s.chipSizeCache = chipSizeOf c.fuseValue where
  toKeptByTransactions := keptByTransactions_of_busOperation fun _ hf s h =>
    ⟨(hf.frame s).cfg.trans h.left, (hf.frame s).chipSizeCache.trans h.right⟩
  moveOn _ _ h := h
  draws _ _ h := h
  cache _ h := ⟨h.left, by rw [h.left]⟩
  response _ _ h := h
  refusal _ h := h

theorem stepFuse_capacity (r : Run) (s : State) :
    (stepFuse r s).cfg = s.cfg ∧ (stepFuse r s).chipSizeCache = chipSizeOf s.cfg.fuseValue := by
  unfold stepFuse
  split <;> exact ⟨rfl, rfl⟩

/-- A command that discovers, with no capacity cached, fills the cache in its first step (R174, R175). -/
theorem runSequencer_fills_cache {cmd : Command} {s : State} (n : Nat) (hcmd : cmd.discovers = true)
    (hcache : s.chipSizeCache = 0) : (runSequencer n (s.accept cmd)).chipSizeCache = chipSizeOf s.cfg.fuseValue := by
  have hturn : sequencerTurn (s.accept cmd) = stepFuse (startRun cmd 0 .first) (s.accept cmd) := by
    rw [← stepDiscover_of_unknown (s := s.accept cmd) hcache]
    cases cmd with
    | init | erase _ _ | write _ _ | read _ _ _ => rfl
    | unlock | lock | pageSize | chipSize => cases hcmd
  have hfirst := stepFuse_capacity (startRun cmd 0 .first) (s.accept cmd)
  rw [← hturn] at hfirst
  cases n with
  | zero => exact hfirst.right
  | succ n =>
    unfold runSequencer
    split
    · exact (runSequencer_keeps (sequencerTurn_keeps (fuseCapacity_keptBySequencer _)) (fun t h => by simpa using h) n _
        (by simpa using hfirst)).right
    · exact hfirst.right

end Sys2Proof.Machine
end

section
/-! PROOFS. Which commands discover the capacity (41_sequencer.md R175). -/

namespace Sys2Proof.Machine

/-- Settles O56, by whether the command discovers and whether the capacity is cached. -/
theorem discoveryTriggerSet : Obligations.DiscoveryTriggerSet := by
  unfold Obligations.DiscoveryTriggerSet
  intro i c s t hi _ ht
  rw [exec_of_command s hi] at ht
  obtain ⟨-, -, hlive, rfl⟩ := runCommand_eq_next_iff.mp ht
  have hset : c.discovers = false ↔ c = .unlock ∨ c = .lock ∨ c = .pageSize ∨ c = .chipSize := by
    cases c <;> simp [Command.discovers]
  rw [← hset, Bool.not_eq_false]
  refine ⟨fun hcmd => runSequencer_chipSizeCache _ (.inr hcmd) hlive, fun hcmd => ?_⟩
  by_cases hcache : s.chipSizeCache = 0
  · rw [discovered_of_unknown hcache]
    exact runSequencer_fills_cache _ hcmd hcache
  · rw [discovered_of_cached hcache]
    exact runSequencer_chipSizeCache _ (.inl hcache) hlive

end Sys2Proof.Machine
end

section
/-! SUPPORT. The mode bits under a run of ERASE or WRITE on an unlocked block (40_register_bus.md R136, 41_sequencer.md R178,
R183). -/

namespace Sys2Proof.Machine

/-- What follows the busy check or a cleanup: the response, or the next page or double-word. -/
inductive AnswersOrClears (r : Run) (s : State) : State → Prop where
  | answers (status : Status) (value : Word) (data : List Byte) : AnswersOrClears r s (s.respond status value data)
  | clears (unit : Nat) : AnswersOrClears r s (s.goto r (.clearBefore unit) r.regs)

theorem firstUnit_answersOrClears (r : Run) (s : State) : AnswersOrClears r s (firstUnit r s) := by
  unfold firstUnit
  (repeat' split) <;> constructor

theorem nextUnit_answersOrClears (r : Run) (s : State) : AnswersOrClears r s (nextUnit r s) := by
  unfold nextUnit
  (repeat' split) <;> constructor

/-! ### The mode bits a command may set -/

/-- Of the two mode bits only the command's own is set: PER of ERASE, PG of WRITE (R178). -/
def OwnMode (cmd : Command) (pg per : Bool) : Prop :=
  match cmd with
  | .erase _ _ => pg = false
  | .write _ _ => per = false
  | _ => pg = false ∧ per = false

/-- The CR value sets no mode bit but the command's own, and not LOCK. -/
def OwnModeWord (cmd : Command) (v : Word) : Prop := OwnMode cmd (v.getLsbD 0) (v.getLsbD 1) ∧ v.getLsbD 31 = false

/-- Neither mode bit is set. -/
def State.modesClear (s : State) : Prop := s.pg = false ∧ s.per = false

/-- What holds of the mode bits of an unlocked block in a run of ERASE or WRITE, by the transaction that comes next: before the
start both are 0, from the start to the cleanup at most the command's own is 1. -/
def ModesInRun (r : Run) (s : State) : Prop :=
  s.lock = false ∧ r.cmd.startsOperations = true ∧
  match r.phase with
  | .first | .busy | .clearBefore _ => s.modesClear
  | .modeRead => s.modesClear ∧ ∀ a b, r.cmd = .erase a b → r.regs.p.toNat ≤ 63
  | .modeWrite => OwnModeWord r.cmd (modeWord r)
  | .lowWord | .highWord | .poll _ | .clearAfter | .cleanupRead => OwnMode r.cmd s.pg s.per
  | .cleanupWrite => OwnModeWord r.cmd r.regs.c
  | .secondKey | .lockWrite | .byteRead => False

section
variable {r : Run} {s : State} {v : Word}

/-- A CR write with LOCK 0 on an unlocked block takes the mode bits and leaves LOCK, whatever it starts (R136). -/
theorem busCrWrite_modes (hlock : s.lock = false) (hv : v.getLsbD 31 = false) :
    (busCrWrite v s).lock = false ∧ (busCrWrite v s).pg = v.getLsbD 0 ∧ (busCrWrite v s).per = v.getLsbD 1 := by
  rw [busCrWrite_of_unlocked hlock, crWriteUnlocked, setLockIf_of_clear hv]
  split <;> simp [hlock]

/-- The cleanup's CR value has both mode bits 0 (R178). -/
theorem ownModeWord_cleanup {cmd : Command} (hcmd : cmd.startsOperations = true) (h : OwnModeWord cmd v) :
    (v &&& ~~~ modeBit cmd).getLsbD 0 = false ∧ (v &&& ~~~ modeBit cmd).getLsbD 1 = false ∧
      (v &&& ~~~ modeBit cmd).getLsbD 31 = false := by
  obtain ⟨hmode, hlock⟩ := h
  have hper : (~~~ crPer).getLsbD 1 = false := by decide
  have hpg : (~~~ crPg).getLsbD 0 = false := by decide
  simp only [BitVec.getLsbD_and, hlock, Bool.false_and, and_true]
  cases cmd with
  | erase a b =>
    have hmode : v.getLsbD 0 = false := hmode
    exact ⟨by rw [hmode, Bool.false_and], by rw [modeBit, hper, Bool.and_false]⟩
  | write a data =>
    have hmode : v.getLsbD 1 = false := hmode
    exact ⟨by rw [modeBit, hpg, Bool.and_false], by rw [hmode, Bool.false_and]⟩
  | _ => cases hcmd

/-- With both mode bits read as 0 and LOCK as 0, the CR value that starts an operation sets the command's own mode bit
alone (R178). -/
theorem ownModeWord_modeWord (hcmd : r.cmd.startsOperations = true) (hlock : s.lock = false) (hclear : s.modesClear)
    (hc : r.regs.c = s.crWord) (hp : ∀ a b, r.cmd = .erase a b → r.regs.p.toNat ≤ 63) :
    OwnModeWord r.cmd (modeWord r) := by
  obtain ⟨cmd, pos, phase, g⟩ := r
  obtain ⟨hpg, hper⟩ := hclear
  dsimp only at hc
  cases cmd with
  | erase a b =>
    have hmode : (eraseCr g.c g.p).getLsbD 0 = s.pg := by rw [eraseCr_pg, hc, crWord_getLsbD s (by decide), if_pos rfl]
    have hbit : (eraseCr g.c g.p).getLsbD 31 = s.lock := by
      rw [eraseCr_lock _ _ (hp a b rfl), hc, crWord_getLsbD s (by decide)]
      rfl
    exact ⟨hmode.trans hpg, hbit.trans hlock⟩
  | write a data => simp [OwnModeWord, OwnMode, modeWord, hc, hper, hlock]
  | _ => cases hcmd

/-- The CR image shows which mode bits are set. -/
theorem ownModeWord_crWord {cmd : Command} (hlock : s.lock = false) (h : OwnMode cmd s.pg s.per) :
    OwnModeWord cmd s.crWord := by
  simpa [OwnModeWord, hlock] using h

theorem ownMode_of_modesClear {cmd : Command} (h : s.modesClear) : OwnMode cmd s.pg s.per := by
  obtain ⟨hpg, hper⟩ := h
  cases cmd <;> simp [OwnMode, hpg, hper]

theorem modesInRun_fsmTurn (h : ModesInRun r s) : ModesInRun r (fsmTurn s) := by
  simpa [ModesInRun, State.modesClear] using h

section
variable (hlock : s.lock = false) (hcmd : r.cmd.startsOperations = true)
include hlock hcmd

theorem modes_answersOrClears {t : State} (ht : AnswersOrClears r s t) (h : s.modesClear) :
    Leads ModesInRun State.modesClear t := by
  cases ht with
  | answers _ _ _ => exact .ends rfl h
  | clears _ => exact .goesOn _ rfl ⟨hlock, hcmd, h⟩

theorem modes_enterPoll (h : OwnMode r.cmd s.pg s.per) : Leads ModesInRun State.modesClear (enterPoll r s) := by
  unfold enterPoll
  split
  · exact .goesOn _ rfl ⟨hlock, hcmd, h⟩
  · exact .goesOn _ rfl ⟨hlock, hcmd, h⟩

theorem modes_afterModeWrite (h : OwnMode r.cmd s.pg s.per) : Leads ModesInRun State.modesClear (afterModeWrite r s) := by
  unfold afterModeWrite
  split
  case h_1 => exact .goesOn _ rfl ⟨hlock, hcmd, h⟩
  all_goals exact modes_enterPoll hlock hcmd h

theorem modes_stepBusy (h : s.modesClear) : Leads ModesInRun State.modesClear (stepBusy r s) := by
  unfold stepBusy
  split
  · exact .ends rfl h
  · have hcmd' : ((floorStart s.cfg r).withStatus s.srWord).cmd.startsOperations = true := by
      simpa [Run.withStatus] using hcmd
    exact modes_answersOrClears (s := busSrRead s) hlock hcmd' (firstUnit_answersOrClears _ _) h

theorem modes_stepFirst (h : s.modesClear) : Leads ModesInRun State.modesClear (stepFirst r s) := by
  have hdiscover : Leads ModesInRun State.modesClear (stepDiscover r s) := by
    refine leads_stepDiscover ?_ (fun _ _ => ⟨?_, ?_⟩) (fun _ hchecked => ?_)
    · rintro t status value data (rfl | rfl)
      · exact .ends rfl h
      · exact .ends rfl h
    · exact .goesOn _ rfl ⟨hlock, hcmd, h⟩
    · exact modes_stepBusy hlock hcmd h
    · simp [not_startsOperations_of_byteReads hchecked] at hcmd
  unfold stepFirst
  cases hc : r.cmd with
  | erase _ _ | write _ _ => exact hdiscover
  | _ => simp [hc, Command.startsOperations] at hcmd

theorem modes_stepClearBefore (unit : Nat) (h : s.modesClear) :
    Leads ModesInRun State.modesClear (stepClearBefore unit r s) := by
  obtain ⟨cmd, pos, phase, g⟩ := r
  cases cmd with
  | erase a b =>
    obtain ⟨-, hstep⟩ | ⟨hunit, hstep⟩ := stepClearBefore_erase (r := ⟨.erase a b, pos, phase, g⟩) s rfl <;> rw [hstep]
    · exact .stops (refuse_live _ _)
    · exact .goesOn _ rfl ⟨hlock, hcmd, h, fun _ _ _ => (Nat.mod_le _ _).trans hunit⟩
  | write a data =>
    cases data with
    | none | some _ => exact .goesOn _ rfl ⟨hlock, hcmd, h, fun _ _ hne => by cases hne⟩
  | _ => cases hcmd

theorem modes_stepPoll (k : Nat) (h : OwnMode r.cmd s.pg s.per) : Leads ModesInRun State.modesClear (stepPoll k r s) := by
  unfold stepPoll
  split
  · exact .goesOn _ rfl ⟨hlock, hcmd, h⟩
  · exact .goesOn _ rfl ⟨hlock, hcmd, h⟩

end

/-- Each sequencer step of ERASE or WRITE keeps to its own mode bit, and the last one leaves both 0 (R183). -/
theorem modes_sequencerStep (h : ModesInRun r s) : Leads ModesInRun State.modesClear (sequencerStep r s) := by
  obtain ⟨cmd, pos, phase, g⟩ := r
  obtain ⟨hlock, hcmd, hphase⟩ := h
  have harrayWrite (o : Nat) (w : Word) (h : OwnMode cmd s.pg s.per) :
      (busArrayWrite o w s).lock = false ∧ OwnMode cmd (busArrayWrite o w s).pg (busArrayWrite o w s).per := by
    simpa [busArrayWrite, hlock] using h
  cases phase with
  | first => exact modes_stepFirst hlock hcmd hphase
  | busy => exact modes_stepBusy hlock hcmd hphase
  | clearBefore unit => exact modes_stepClearBefore hlock hcmd unit hphase
  | modeRead =>
    obtain ⟨hclear, hp⟩ := hphase
    exact .goesOn _ rfl ⟨hlock, hcmd, ownModeWord_modeWord hcmd hlock hclear rfl hp⟩
  | modeWrite =>
    obtain ⟨hmode, hv⟩ := hphase
    obtain ⟨hlock', hpg, hper⟩ := busCrWrite_modes hlock hv
    exact leads_andThen (modes_afterModeWrite hlock' hcmd (by rwa [hpg, hper]))
  | lowWord =>
    obtain ⟨hlock', hmode⟩ := harrayWrite _ _ hphase
    exact leads_andThen (.goesOn _ rfl ⟨hlock', hcmd, hmode⟩)
  | highWord =>
    obtain ⟨hlock', hmode⟩ := harrayWrite _ _ hphase
    exact leads_andThen (modes_enterPoll hlock' hcmd hmode)
  | poll k => exact modes_stepPoll hlock hcmd k hphase
  | clearAfter => exact .goesOn _ rfl ⟨hlock, hcmd, hphase⟩
  | cleanupRead => exact .goesOn _ rfl ⟨hlock, hcmd, ownModeWord_crWord hlock hphase⟩
  | cleanupWrite =>
    obtain ⟨hpg, hper, hv⟩ := ownModeWord_cleanup hcmd hphase
    obtain ⟨hlock', hpg', hper'⟩ := busCrWrite_modes hlock hv
    exact leads_andThen
      (modes_answersOrClears hlock' hcmd (nextUnit_answersOrClears _ _) ⟨hpg'.trans hpg, hper'.trans hper⟩)
  | secondKey | lockWrite | byteRead => exact hphase.elim

end

/-- After ERASE or WRITE of an unlocked block with both mode bits 0, they are 0 again (R183). -/
theorem modesClear_of_exec {i : Instr} {c : Command} {s t : State} (hi : commandOf i = some c)
    (hc : c.startsOperations = true) (hlock : s.lock = false) (hclear : s.modesClear)
    (ht : exec i s = .next t) : t.modesClear := by
  rw [exec_of_command s hi] at ht
  obtain ⟨-, -, hlive, rfl⟩ := runCommand_eq_next_iff.mp ht
  have hstart : ModesInRun (startRun c 0 .first) (s.accept c) := ⟨hlock, hc, hclear⟩
  have hmodes := runSequencer_leads (J := fun _ => ModesInRun) (fun _ _ _ => modes_sequencerStep)
    (fun _ _ _ => modesInRun_fsmTurn) (commandBound s.cfg c) rfl hstart
  cases hmodes with
  | stops hdead => simp [hdead] at hlive
  | ends _ hmodes => exact hmodes
  | goesOn r hseq _ =>
    have hover := (runSequencer_ends c s).not_sequencing
    simp [State.sequencing, hseq, hlive] at hover

end Sys2Proof.Machine
end

section
/-! PROOFS. ERASE and WRITE leave no mode bit behind (41_sequencer.md R183). -/

namespace Sys2Proof.Machine

/-- Settles O54: both commands start operations. -/
theorem modeBitsAreClearAfterwards : Obligations.ModeBitsAreClearAfterwards := by
  unfold Obligations.ModeBitsAreClearAfterwards
  rintro s t _ hlock hpg hper (⟨a, b, ht⟩ | ⟨a, d, ht⟩)
  · exact modesClear_of_exec rfl rfl hlock ⟨hpg, hper⟩ ht
  · exact modesClear_of_exec rfl rfl hlock ⟨hpg, hper⟩ ht

end Sys2Proof.Machine
end

section
/-! SUPPORT. A command of one transaction, and one of two: its outcome from any ready state, busy or not; INIT is of the first kind
(41_sequencer.md R172, R181, 42_init_unlock_lock.md R200). -/

namespace Sys2Proof.Machine

section
variable {i : Instr} {c : Command} {s t u : State}

/-- A command that responds in its first step. -/
theorem exec_of_one_step (hi : commandOf i = some c) (hready : Ready s) (hend : sequencerTurn (s.accept c) = u)
    (hidle : u.seq = .idle) (hlive : u.live = true) : exec i s = .next u := by
  rw [exec_of_command s hi, runCommand_of_ready hready, runSequencer_of_not_sequencing (sequencing_of_idle (hend ▸ hidle)),
    hend, outcome_of_live hlive]

/-- A command that responds in its second step; the flash FSM has its turn between the two (R155). -/
theorem exec_of_two_steps (hi : commandOf i = some c) (hready : Ready s) (hbound : commandBound s.cfg c ≠ 0)
    (hfirst : sequencerTurn (s.accept c) = t) (hgoes : t.sequencing = true) (hend : sequencerTurn (fsmTurn t) = u)
    (hidle : u.seq = .idle) (hlive : u.live = true) : exec i s = .next u := by
  obtain ⟨n, hn⟩ := Nat.exists_eq_succ_of_ne_zero hbound
  rw [exec_of_command s hi, runCommand_of_ready hready, hn, runSequencer_succ_of_sequencing (hfirst ▸ hgoes), hfirst,
    runSequencer_of_not_sequencing (sequencing_of_idle (hend ▸ hidle)), hend, outcome_of_live hlive]

end

/-- INIT has no checks after discovery, and responds in its first step, with or without the fuse read (R174, R200). -/
theorem stepDiscover_init (s : State) :
    stepDiscover (startRun .init 0 .first) (s.accept .init) = s.discovered.respond .ok 0 [] := by
  by_cases hcache : s.chipSizeCache = 0
  · rw [discovered_of_unknown hcache]
    exact if_pos hcache
  · rw [discovered_of_cached hcache]
    exact if_neg hcache

end Sys2Proof.Machine
end

section
/-! SUPPORT. The key handshake, one key write at a time, and the two key writes of UNLOCK (40_register_bus.md R142, R143,
42_init_unlock_lock.md R201). -/

namespace Sys2Proof.Machine

/-! ### The lock and the key stage after a key write -/

section
variable {s : State} {v : Word}

theorem busKeyWrite_of_unlocked (hlock : s.lock = false) :
    (busKeyWrite v s).lock = false ∧ (busKeyWrite v s).keyStage = s.keyStage := by
  simp [hlock]

/-- A frozen block stays locked (R143). -/
theorem busKeyWrite_of_frozen (hlock : s.lock = true) (hstage : s.keyStage = .frozen) :
    (busKeyWrite v s).lock = true ∧ (busKeyWrite v s).keyStage = .frozen := by
  simp [hlock, hstage, keyUnlocks, nextKeyStage]

theorem busKeyWrite_key1_of_expect1 (hlock : s.lock = true) (hstage : s.keyStage = .expect1) :
    (busKeyWrite s.cfg.key1 s).lock = true ∧ (busKeyWrite s.cfg.key1 s).keyStage = .expect2 := by
  simp [hlock, hstage, keyUnlocks, nextKeyStage]

theorem busKeyWrite_key2_of_expect2 (hlock : s.lock = true) (hstage : s.keyStage = .expect2) :
    (busKeyWrite s.cfg.key2 s).lock = false ∧ (busKeyWrite s.cfg.key2 s).keyStage = .expect1 := by
  simp [hlock, hstage, keyUnlocks, nextKeyStage]

theorem badKeyStage_ne_expect2 (c : Config) : badKeyStage c ≠ .expect2 := by
  unfold badKeyStage
  cases c.badKeyPolicy with
  | ignore => decide
  | lockUntilReset => decide

/-- A bad second key leaves the block locked, and the next key write is not a second key (R143). -/
theorem busKeyWrite_bad_of_expect2 (hlock : s.lock = true) (hstage : s.keyStage = .expect2) (hbad : v ≠ s.cfg.key2) :
    (busKeyWrite v s).lock = true ∧ (busKeyWrite v s).keyStage ≠ .expect2 := by
  simp [hlock, hstage, hbad, keyUnlocks, nextKeyStage, badKeyStage_ne_expect2]

/-- Only a second key can unlock (R142). -/
theorem busKeyWrite_lock_of_ne_expect2 (hlock : s.lock = true) (hstage : s.keyStage ≠ .expect2) :
    (busKeyWrite v s).lock = true := by
  cases h : s.keyStage with
  | expect2 => exact absurd h hstage
  | expect1 => simp [hlock, h, keyUnlocks]
  | frozen => simp [hlock, h, keyUnlocks]

end

/-! ### UNLOCK -/

/-- The block before the second key of UNLOCK, after the flash FSM's turn there. -/
def State.betweenKeys (s : State) : State :=
  fsmTurn ((busKeyWrite s.cfg.key1 s).withRun (startRun .unlock 1 .secondKey))

section
variable (s : State)

theorem State.betweenKeys_lock : s.betweenKeys.lock = (busKeyWrite s.cfg.key1 s).lock := fsmTurn_lock _

theorem State.betweenKeys_keyStage : s.betweenKeys.keyStage = (busKeyWrite s.cfg.key1 s).keyStage := fsmTurn_keyStage _

theorem State.betweenKeys_of_no_op (hop : s.op = .none) :
    s.betweenKeys = (busKeyWrite s.cfg.key1 s).withRun (startRun .unlock 1 .secondKey) :=
  fsmTurn_of_no_op hop

end

/-- UNLOCK writes both keys and responds, whatever the block answers (R201). -/
theorem exec_unlock {s : State} (hready : Ready s) : exec .unlock s = .next (stepSecondKey s.betweenKeys) := by
  have hrunning : s.betweenKeys.seq = .running (startRun .unlock 1 .secondKey) := fsmTurn_seq _
  exact exec_of_two_steps (t := (busKeyWrite s.cfg.key1 s).withRun (startRun .unlock 1 .secondKey)) rfl hready
    (Nat.succ_ne_zero 1) rfl hready.left (sequencerTurn_of_running hrunning) rfl ((fsmTurn_live _).trans hready.left)

end Sys2Proof.Machine
end

section
/-! SUPPORT. The CR write that sets LOCK, and the two transactions of LOCK (40_register_bus.md R135, R136,
42_init_unlock_lock.md R202). -/

namespace Sys2Proof.Machine

/-- A CR write of the block's own mode bits and page index with LOCK set: it sets LOCK, starts and aborts nothing, and clears the
latch where it takes effect with PG = 0 (R135 to R138). -/
theorem busCrWrite_of_lock_set {s : State} {v : Word} (hpg : v.getLsbD 0 = s.pg) (hper : v.getLsbD 1 = s.per)
    (hpnb : crPageIndex v = s.pnb) (hv : v.getLsbD 31 = true) :
    busCrWrite v s = { s.logRegister true crOffset (some v) with
      lock := true
      latch := if s.lock || s.pg then s.latch else none } := by
  cases hlock : s.lock with
  | true =>
    rw [busCrWrite_of_locked hlock, Bool.true_or, if_pos rfl, ← hlock]
    rfl
  | false =>
    have habort : abortCheck v (s.logRegister true crOffset (some v)) = false := by
      rw [abortCheck, State.logRegister_per, State.logRegister_pg, hpg, hper]
      simp [Bool.and_assoc]
    rw [busCrWrite_of_no_start hlock (.inr (.inr (.inl hv))), Bool.false_or]
    simp only [setLockIf, crFields, habort, hv, hpg, hper, hpnb, Bool.or_true, Bool.or_false]
    rfl

@[simp] theorem crPageIndex_or_crLock (v : Word) : crPageIndex (v ||| crLock) = crPageIndex v := by
  ext i hi
  interval_cases i <;> simp [crPageIndex, crLock]

/-- The run of LOCK after its CR read. -/
def State.lockRun (s : State) : Run := ⟨.lock, 1, .lockWrite, { Regs.start .lock with c := s.crWord }⟩

/-- The block before the CR write of LOCK, after the flash FSM's turn there. -/
def State.beforeLockWrite (s : State) : State :=
  fsmTurn ((busCrRead s).withRun s.lockRun)

theorem State.beforeLockWrite_of_no_op {s : State} (hop : s.op = .none) :
    s.beforeLockWrite = (busCrRead s).withRun s.lockRun :=
  fsmTurn_of_no_op hop

/-- The CR write of LOCK, whether or not an operation completed since the CR read: the control fields are as they were read. -/
theorem busCrWrite_beforeLockWrite (s : State) :
    busCrWrite (s.crWord ||| crLock) s.beforeLockWrite =
      { s.beforeLockWrite.logRegister true crOffset (some (s.crWord ||| crLock)) with
        lock := true
        latch := if s.lock || s.pg then s.latch else none } := by
  have hlock : s.beforeLockWrite.lock = s.lock := fsmTurn_lock _
  have hlatch : s.beforeLockWrite.latch = s.latch := fsmTurn_latch _
  have hpg : s.beforeLockWrite.pg = s.pg := fsmTurn_pg _
  have hper : s.beforeLockWrite.per = s.per := fsmTurn_per _
  have hpnb : s.beforeLockWrite.pnb = s.pnb := fsmTurn_pnb _
  rw [busCrWrite_of_lock_set, hlock, hpg, hlatch]
  · simp [hpg, crLock]
  · simp [hper, crLock]
  · rw [crPageIndex_or_crLock, crPageIndex_crWord, hpnb]
  · simp [crLock]

/-- LOCK reads CR, writes it back with LOCK set, and responds (R202). -/
theorem exec_lock {s : State} (hready : Ready s) :
    exec .lock s = .next ((busCrWrite (s.crWord ||| crLock) s.beforeLockWrite).respond .ok 0 []) := by
  have hrunning : s.beforeLockWrite.seq = .running s.lockRun := fsmTurn_seq _
  have hlive : (busCrWrite (s.crWord ||| crLock) s.beforeLockWrite).live = true := by
    rw [busCrWrite_beforeLockWrite]
    exact (fsmTurn_live _).trans hready.left
  exact exec_of_two_steps (t := (busCrRead s).withRun s.lockRun) rfl hready (Nat.succ_ne_zero 1) rfl hready.left
    ((sequencerTurn_of_running hrunning).trans (andThen_of_live hlive)) rfl hlive

end Sys2Proof.Machine
end

section
/-! PROOFS. INIT, UNLOCK and LOCK (42_init_unlock_lock.md R200 to R202). -/

namespace Sys2Proof.Machine

/-- Settles O40: by the lock and the key stage, the first key write and then the second. -/
theorem unlockRunsKeySequence : Obligations.UnlockRunsKeySequence := by
  unfold Obligations.UnlockRunsKeySequence
  intro s hready
  have hlock := s.betweenKeys_lock
  have hstage := s.betweenKeys_keyStage
  refine ⟨_, exec_unlock hready, rfl, rfl, fun h hkey => ?_, fun h => ?_, fun h hkey => ?_, fun h hkey hne => ?_,
    fsmTurn_pg _, fsmTurn_per _, fsmTurn_pnb _, fsmTurn_latch _, fsmTurn_chipSizeCache _, fun hop => ?_⟩
  · obtain ⟨hlock₁, hstage₁⟩ := busKeyWrite_key1_of_expect1 h hkey
    exact busKeyWrite_key2_of_expect2 (hlock.trans hlock₁) (hstage.trans hstage₁)
  · obtain ⟨hlock₁, hstage₁⟩ := busKeyWrite_of_unlocked (v := s.cfg.key1) h
    obtain ⟨hlock₂, hstage₂⟩ := busKeyWrite_of_unlocked (v := s.betweenKeys.cfg.key2) (hlock.trans hlock₁)
    exact ⟨hlock₂, hstage₂.trans (hstage.trans hstage₁)⟩
  · obtain ⟨hlock₁, hstage₁⟩ := busKeyWrite_of_frozen (v := s.cfg.key1) h hkey
    exact busKeyWrite_of_frozen (hlock.trans hlock₁) (hstage.trans hstage₁)
  · obtain ⟨hlock₁, hstage₁⟩ := busKeyWrite_bad_of_expect2 h hkey hne
    exact busKeyWrite_lock_of_ne_expect2 (hlock.trans hlock₁) (hstage ▸ hstage₁)
  · rw [s.betweenKeys_of_no_op hop, hready.right, List.append_cons]
    rfl

/-- Settles O41: the CR write of LOCK keeps all that the flash FSM's turn before it keeps, but LOCK and the latch. -/
theorem lockSetsLockBit : Obligations.LockSetsLockBit := by
  unfold Obligations.LockSetsLockBit
  intro s hready
  have hexec := exec_lock hready
  rw [busCrWrite_beforeLockWrite] at hexec
  refine ⟨_, hexec, rfl, rfl, rfl, fsmTurn_pg _, fsmTurn_per _, fsmTurn_pnb _, fsmTurn_keyStage _,
    fsmTurn_chipSizeCache _, fun hop => ?_⟩
  rw [State.beforeLockWrite_of_no_op hop, hready.right, List.append_cons]
  rfl

/-- Settles O39: discovery and the response are INIT's one step. -/
theorem initCachesCapacity : Obligations.InitCachesCapacity := by
  unfold Obligations.InitCachesCapacity
  intro s hready
  obtain ⟨hlive, hidle⟩ := id hready
  have hturn : sequencerTurn (s.accept .init) = s.discovered.respond .ok 0 [] := stepDiscover_init s
  obtain ⟨cache, es, hdiscovered⟩ := exists_discovered_eq s
  rw [hdiscovered] at hturn ⊢
  refine exec_of_one_step rfl hready (hturn.trans ?_) hidle hlive
  rw [State.respond, ← hidle]

end Sys2Proof.Machine
end

section
/-! SUPPORT. A command that comes to its busy check with no operation in flight (41_sequencer.md R174, R179). -/

namespace Sys2Proof.Machine

section
variable {s : State} {i : Instr} {c : Command}

/-- A command whose checks after discovery find nothing wrong comes to its busy check (R174, R175). -/
theorem reaches_busyCheck (hop : s.op = .none) (hlive : s.live = true)
    (hfirst : sequencerTurn (s.accept c) = stepDiscover (startRun c 0 .first) (s.accept c))
    (hchecked : afterDiscover s.cfg s.discovered.chipSizeCache c = .busyCheck) :
    ∃ pos, Reaches 1 (s.accept c) (s.discovered.withRun (startRun c pos .busy)) :=
  reaches_discovered hop hlive hfirst (.inl ⟨hchecked, rfl⟩) fun hcache =>
    stepDiscover_startRun_of_busyCheck hcache (by rwa [discovered_of_cached hcache] at hchecked)

theorem stepBusy_of_idle {r : Run} (hop : s.op = .none) :
    stepBusy r s = firstUnit ((floorStart s.cfg r).withStatus s.srWord) (busSrRead s) :=
  if_neg (by simp [State.bsy, hop])

/-- A command with no page and no double-word to go through answers OK after its busy check, and leaves nothing else changed
(R210, R220). -/
theorem exec_of_no_unit (hi : commandOf i = some c) (hquiet : Quiet s)
    (hfirst : sequencerTurn (s.accept c) = stepDiscover (startRun c 0 .first) (s.accept c))
    (hchecked : afterDiscover s.cfg s.discovered.chipSizeCache c = .busyCheck) (hbound : 1 ≤ commandBound s.cfg c)
    (hnone : ∀ pos t, firstUnit ((floorStart t.cfg (startRun c pos .busy)).withStatus t.srWord) (busSrRead t) =
      (busSrRead t).respond .ok 0 []) :
    exec i s = .next { s.discovered with
      history := s.discovered.history ++ [.bus 0x08000010 0x10 (some s.srWord)]
      resp := some ⟨.ok, 0, []⟩ } := by
  obtain ⟨⟨hlive, hidle⟩, hop⟩ := id hquiet
  obtain ⟨pos, hreach⟩ := reaches_busyCheck hop hlive hfirst hchecked
  obtain ⟨cache, es, hdiscovered⟩ := exists_discovered_eq s
  rw [hdiscovered] at hreach ⊢
  let t : State := { s with chipSizeCache := cache, history := es }
  have hend : sequencerTurn (fsmTurn (t.withRun (startRun c pos .busy))) = (busSrRead t).respond .ok 0 [] :=
    (boundary_withRun (s := t) _ hop).trans ((stepBusy_of_idle (s := t.withRun (startRun c pos .busy)) hop).trans (hnone pos _))
  refine hreach.exec_eq hi hquiet hbound (hend.trans ?_) hidle hlive
  rw [State.respond, ← hidle]
  rfl

end

end Sys2Proof.Machine
end

section
/-! PROOFS. ERASE of no page and WRITE of no byte (43_erase.md R210, 44_write.md R220). -/

namespace Sys2Proof.Machine

/-- Settles O46: both commands pass their checks, and have no unit to go through. -/
theorem emptyEraseAndWriteAnswerOk : Obligations.EmptyEraseAndWriteAnswerOk := by
  unfold Obligations.EmptyEraseAndWriteAnswerOk
  intro s a hquiet
  constructor
  · intro hstart
    have hchecked : eraseChecks s.cfg s.discovered.chipSizeCache a 0 = .busyCheck :=
      if_pos (inRange_discovered hstart (by simpa [pageFloor] using hstart.le))
    exact exec_of_no_unit rfl hquiet rfl hchecked (Nat.le_add_left 1 _) fun _ _ => rfl
  · intro haligned hstart
    have hchecked : writeChecks s.cfg s.discovered.chipSizeCache a (some []) = .busyCheck :=
      (if_neg (not_not.mpr haligned)).trans (if_pos (inRange_discovered hstart hstart.le))
    exact exec_of_no_unit rfl hquiet rfl hchecked (Nat.le_add_left 1 _) fun _ _ => rfl

end Sys2Proof.Machine
end

section
/-! SUPPORT. The flash FSM's turn at the boundaries of a run: it reads neither the run nor `HISTORY`, and schedules of waiting
(40_register_bus.md R155, log entry 1). -/

namespace Sys2Proof.Machine

/-! ### The turn beside the run and `HISTORY` -/

/-- What the flash FSM's turn appends to `HISTORY` (R58). -/
def State.turnEvents (s : State) : List Event :=
  if s.live = true ∧ s.op ≠ .none ∧ drawBit (s.drawAt 0) = true then [.completion s.op] else []

section
variable {s : State} (r : Run) (es : List Event)

theorem drawInto_withTrace (o n : Nat) : (s.withTrace r es).drawInto o n = (s.drawInto o n).withTrace r es := by
  have hdraws : (s.withTrace r es).drawBytes 0 n = s.drawBytes 0 n :=
    drawBytes_congr (s := s.withTrace r es) (t := s) (fun _ => rfl) 0 n
  rw [State.drawInto, hdraws]
  rfl

theorem completeErase_withTrace (p : BitVec 6) :
    completeErase p (s.withTrace r es) = (completeErase p s).withTrace r es := by
  have hdraws := drawInto_withTrace (s := s) r es (p.toNat * s.cfg.page) s.cfg.page
  simp only [completeErase, apply_ite (State.withTrace r es), ← hdraws]
  rfl

theorem fsmComplete_erase_withTrace {p : BitVec 6} (hop : s.op = .erase p) :
    fsmComplete (s.withTrace r es) = (fsmComplete s).withTrace r (es ++ [.completion s.op]) := by
  have hop' : (s.withTrace r es).op = .erase p := hop
  simp only [fsmComplete, hop, hop', completeErase_withTrace]
  rfl

/-- The flash FSM's turn reads neither the run nor `HISTORY` (R155). -/
theorem fsmTurn_withTrace : fsmTurn (s.withTrace r es) = (fsmTurn s).withTrace r (es ++ s.turnEvents) := by
  obtain ⟨hsame, hno⟩ | ⟨hlive, hop, ⟨hwait, hdraw⟩ | ⟨hdone, hdraw⟩⟩ := fsmTurn_cases s
  · have hnone : s.turnEvents = [] := if_neg fun ⟨hlive, hop, _⟩ => by simp_all
    have hsame' : fsmTurn (s.withTrace r es) = s.withTrace r es := if_pos hno
    rw [hsame, hsame', hnone, List.append_nil]
  · have hnone : s.turnEvents = [] := if_neg fun ⟨_, _, h⟩ => by simp [hdraw] at h
    rw [hwait, hnone, List.append_nil]
    exact fsmTurn_of_wait (s := s.withTrace r es) hlive hop hdraw
  · have hone : s.turnEvents = [.completion s.op] := if_pos ⟨hlive, hop, hdraw⟩
    rw [hdone, hone]
    refine (fsmTurn_of_completion (s := s.withTrace r es) hlive hop hdraw).trans ?_
    cases h : s.op with
    | none => exact absurd h hop
    | erase p => exact h ▸ fsmComplete_erase_withTrace (s := s.afterDraws 1) r es h
    | program o lo hi => exact h ▸ fsmComplete_withTrace (s := s.afterDraws 1) h r es

end

section
variable {s : State}

theorem turnEvents_of_no_op (hop : s.op = .none) : s.turnEvents = [] := if_neg fun ⟨_, h, _⟩ => h hop

theorem turnEvents_of_wait (hdraw : drawBit (s.drawAt 0) = false) : s.turnEvents = [] :=
  if_neg fun ⟨_, _, h⟩ => by simp [hdraw] at h

theorem turnEvents_of_completion (hlive : s.live = true) (hop : s.op ≠ .none) (hdraw : drawBit (s.drawAt 0) = true) :
    s.turnEvents = [.completion s.op] := if_pos ⟨hlive, hop, hdraw⟩

/-- The turn does not read the SR image: no SR read is logged. -/
theorem turnEvents_no_statusRead : s.turnEvents.filter Event.isStatusRead = [] := by
  unfold State.turnEvents
  split <;> rfl

theorem afterDraws_zero : s.afterDraws 0 = s := by simp [State.afterDraws]

end

/-! ### Schedules of waiting -/

section
variable {s t : State}

theorem waitsFor_add (k m n : Nat) : s.waitsFor k (m + n) = (s.waitsFor k m && s.waitsFor (k + m) n) := by
  simp [State.waitsFor, List.range_add, List.all_map, Function.comp_def, Nat.add_assoc]

@[simp] theorem waitsFor_one (k : Nat) : s.waitsFor k 1 = !drawBit (s.drawAt k) := by simp [State.waitsFor]

theorem waitsFor_congr {n : Nat} (hdraws : ∀ k, t.drawAt k = s.drawAt (n + k)) (k w : Nat) :
    t.waitsFor k w = s.waitsFor (n + k) w := by
  simp [State.waitsFor, hdraws, Nat.add_assoc]

theorem completesAfter_iff (k n : Nat) :
    s.completesAfter k n = true ↔ s.waitsFor k n = true ∧ drawBit (s.drawAt (k + n)) = true := by
  simp [State.completesAfter]

end

end Sys2Proof.Machine
end

section
/-! SUPPORT. The CR words of an erase, and the CR writes that start a page and clean up after it (30_encoding.md R102, R103,
40_register_bus.md R136 to R138). -/

namespace Sys2Proof.Machine

/-! ### The CR words -/

/-- The CR value that starts page `p` on an unlocked block with PG clear, and its image while it is erased: STRT, PER and the page
index (R102, R103). -/
def startWord (p : Nat) : Word := 0x00010002 ||| BitVec.ofNat 32 p <<< 3

/-- The CR value that the cleanup writes while page `p` is erased: STRT and the page index (R178). -/
def abortWord (p : Nat) : Word := 0x00010000 ||| BitVec.ofNat 32 p <<< 3

section
variable {p : Nat}

theorem ofNat_getElem_lock (hp : p ≤ 63) : (BitVec.ofNat 32 p)[28] = false := by
  rw [BitVec.getElem_eq_testBit_toNat]
  exact Nat.testBit_lt_two_pow ((Nat.mod_le _ _).trans_lt (by omega))

theorem pageIndex_setWidth (hp : p ≤ 63) : (BitVec.ofNat 6 p).setWidth 32 = BitVec.ofNat 32 p := by
  apply BitVec.eq_of_toNat_eq
  simp only [BitVec.toNat_setWidth, BitVec.toNat_ofNat]
  omega

theorem startWord_and_not_crPer : startWord p &&& ~~~ crPer = abortWord p := by
  ext i hi
  interval_cases i <;> simp [startWord, abortWord, crPer]

theorem crPageIndex_or_shiftLeft {v : Word} (hv : crPageIndex v = 0) (w : Word) :
    crPageIndex (v ||| w <<< 3) = w.setWidth 6 := by
  rw [crPageIndex] at hv ⊢
  rw [BitVec.extractLsb'_or, hv]
  ext i hi
  interval_cases i <;> simp

theorem crPageIndex_startWord : crPageIndex (startWord p) = BitVec.ofNat 6 p :=
  (crPageIndex_or_shiftLeft (by decide) _).trans (BitVec.setWidth_ofNat_of_le (by decide) p)

theorem crPageIndex_abortWord : crPageIndex (abortWord p) = BitVec.ofNat 6 p :=
  (crPageIndex_or_shiftLeft (by decide) _).trans (BitVec.setWidth_ofNat_of_le (by decide) p)

theorem startWord_bits (hp : p ≤ 63) :
    (startWord p).getLsbD 0 = false ∧ (startWord p).getLsbD 1 = true ∧ (startWord p).getLsbD 16 = true ∧ 
      (startWord p).getLsbD 31 = false := by
  simp [startWord, ofNat_getElem_lock hp]

theorem abortWord_bits (hp : p ≤ 63) :
    (abortWord p).getLsbD 0 = false ∧ (abortWord p).getLsbD 1 = false ∧ (abortWord p).getLsbD 31 = false := by
  simp [abortWord, ofNat_getElem_lock hp]

end

/-! ### The start of a page -/

/-- The erase of page `p` is in flight, started by ERASE (R138, R210 step 2). -/
def State.startedPage (p : Nat) (s : State) : State :=
  { s with
    flags := 0, pg := false, per := true, pnb := BitVec.ofNat 6 p, latch := none, op := .erase (BitVec.ofNat 6 p)
    aborted := false }

section
variable {s : State} {p : Nat}

/-- The CR value that starts a page, from the CR image of an unlocked block with nothing in flight and PG clear (R103). -/
theorem eraseCr_crWord (hlock : s.lock = false) (hop : s.op = .none) (hpg : s.pg = false) :
    eraseCr s.crWord (BitVec.ofNat 32 p) = startWord p := by
  have hstrt : s.strt = false := by simp [State.strt, hop, Op.isErase]
  ext i hi
  rw [eraseCr, startWord]
  interval_cases i <;> simp [State.crWord, hlock, hpg, hstrt, crLock, crPnbMask, crPer, crPg, crStrt]

theorem startedPage_crWord (hlock : s.lock = false) (hp : p ≤ 63) : (s.startedPage p).crWord = startWord p := by
  ext i hi
  simp only [State.crWord, State.startedPage, State.strt, Op.isErase, hlock, pageIndex_setWidth hp, startWord]
  interval_cases i <;> simp [crLock, crStrt, crPer, crPg]

/-- The CR write that starts a whole page on an unlocked block with nothing in flight, no flag set and PG clear (R136, R138). -/
theorem busCrWrite_startWord (hlock : s.lock = false) (hop : s.op = .none) (hflags : s.flags = 0) (hp : p ≤ 63)
    (hin : (p + 1) * s.cfg.page ≤ s.cfg.arraySize) :
    busCrWrite (startWord p) s = (s.startedPage p).logRegister true crOffset (some (startWord p)) := by
  obtain ⟨hpg, hper, hstrt, hv⟩ := startWord_bits hp
  have hpnb : (BitVec.ofNat 6 p).toNat = p := Nat.mod_eq_of_lt (by omega)
  rw [busCrWrite_of_start hlock hop hstrt hv hper, if_neg (ne_true_of_eq_false hpg), crPageIndex_startWord,
    startErase_of_no_flag (by exact hflags) (by simpa [hpnb] using hin), State.startedPage, ← hflags]
  rfl

/-! ### The cleanup of a page -/

/-- Clearing PER in the CR image gives the image of the block with PER clear. -/
theorem crWord_and_not_crPer : s.crWord &&& ~~~ crPer = { s with per := false }.crWord := by
  ext i hi
  simp only [State.crWord, State.strt]
  interval_cases i <;> simp [crLock, crStrt, crPer, crPg]

/-- Writing back the CR image with PER clear, with nothing in flight and PG clear, clears PER, and the latch with it (R136,
R178). -/
theorem busCrWrite_clearPer (hlock : s.lock = false) (hop : s.op = .none) (hpg : s.pg = false) :
    busCrWrite (s.crWord &&& ~~~ crPer) s =
      { s.logRegister true crOffset (some (s.crWord &&& ~~~ crPer)) with per := false, latch := none } := by
  have hpnb : crPageIndex (s.crWord &&& ~~~ crPer) = s.pnb := by
    rw [crWord_and_not_crPer, crPageIndex_crWord]
  rw [busCrWrite_of_plain hlock hop (by simp [State.strt, hop, Op.isErase]) (by simp [hlock]), hpnb]
  simp [hpg, crPer]

/-- Clearing PER while the page is erased aborts the erase (R137). -/
theorem busCrWrite_abortWord (hlock : s.lock = false) (hop : s.op = .erase (BitVec.ofNat 6 p)) (hper : s.per = true)
    (hp : p ≤ 63) :
    busCrWrite (abortWord p) s =
      { s.logRegister true crOffset (some (abortWord p)) with
        pg := false, per := false, pnb := BitVec.ofNat 6 p, latch := none, aborted := true } := by
  obtain ⟨hpg, hper', hv⟩ := abortWord_bits hp
  have habort : abortCheck (abortWord p) (s.logRegister true crOffset (some (abortWord p))) = true := by
    rw [abortCheck, hper']
    simp [hop, hper, Op.isErase]
  rw [busCrWrite_of_no_start hlock (.inr (.inl (by simp [hop]))), setLockIf_of_clear hv, crFields, habort, hpg, hper',
    crPageIndex_abortWord, Bool.or_true]
  rfl

end

end Sys2Proof.Machine
end

section
/-! SUPPORT. The steps of one page of ERASE from its start to the end of its cleanup, each exactly (43_erase.md R210,
41_sequencer.md R177, R178). -/

namespace Sys2Proof.Machine

/-- The registers that say where ERASE is: the page-floored start and the current page. -/
def Regs.place (g : Regs) : Word × Word := (g.rs, g.p)

/-- An SR read of a busy block with no flag set. -/
def busyRead : Event := registerEvent false srOffset 0x00010000

/-- The transaction after the CR write that starts a page: with a budget of 0 the poll reads nothing (R177). -/
def erasePollPhase (c : Config) : Phase := if c.eraseTimeout = 0 then .clearAfter else .poll 1

theorem statusRead_of_busy {s : State} (hop : s.op ≠ .none) (hflags : s.flags = 0) :
    registerEvent false srOffset s.srWord = busyRead := by
  have hbusy : s.bsy = true := decide_eq_true hop
  rw [State.srWord, hflags, hbusy]
  decide

section
variable {s : State} {a b : Word} {p k n w pos : Nat} {phase : Phase} {g : Regs} {es : List Event}

/-- A boundary of ERASE: the flash FSM's turn, and then the step. -/
theorem boundary_erasing_turn :
    sequencerTurn (fsmTurn (s.erasing a b pos phase g es)) =
      sequencerTurn ((fsmTurn s).erasing a b pos phase g (es ++ s.turnEvents)) := by
  rw [State.erasing, fsmTurn_withTrace]
  rfl

/-! ### The start of a page -/

theorem enterPoll_erase :
    enterPoll (eraseRun a b pos .modeWrite g) (s.erasing a b pos .modeWrite g es) =
      s.erasing a b (pos + 1) (erasePollPhase s.cfg) g es := by
  unfold enterPoll erasePollPhase
  split
  case isTrue hzero =>
    have hzero : s.cfg.eraseTimeout = 0 := hzero
    rw [if_pos hzero]
    rfl
  case isFalse hbudget =>
    have hbudget : ¬ s.cfg.eraseTimeout = 0 := hbudget
    rw [if_neg hbudget]
    rfl

/-- Before a page of six bits the flags are cleared and CR is read (R210 steps 1 and 2). -/
theorem reaches_modeWrite_of_page (hlive : s.live = true) (hop : s.op = .none) (hp : p ≤ 63) :
    Reaches 2 (s.erasing a b pos (.clearBefore p) g es)
      ({ s with flags := 0 }.erasing a b (pos + 2) .modeWrite { g with p := BitVec.ofNat 32 p, c := s.crWord }
        (es ++ [registerEvent true srOffset srClear] ++ [registerEvent false crOffset s.crWord])) :=
  (reaches_of_turn (boundary_clearBefore_erase hop hp) hlive).trans
    (reaches_of_turn (boundary_modeRead_erase (s := { s with flags := 0 }) hop) hlive)

/-- On an unlocked block with PG clear the CR write starts the page, and the poll follows (R210 steps 2 and 3). -/
theorem boundary_modeWrite_of_unlocked (hlive : s.live = true) (hop : s.op = .none) (hlock : s.lock = false)
    (hpg : s.pg = false) (hflags : s.flags = 0) (hc : g.c = s.crWord) (hgp : g.p = BitVec.ofNat 32 p) (hp : p ≤ 63)
    (hin : (p + 1) * s.cfg.page ≤ s.cfg.arraySize) :
    sequencerTurn (fsmTurn (s.erasing a b pos .modeWrite g es)) =
      (s.startedPage p).erasing a b (pos + 1) (erasePollPhase s.cfg) g
        (es ++ [registerEvent true crOffset (startWord p)]) := by
  have hword : modeWord (eraseRun a b pos .modeWrite g) = startWord p := by
    rw [← eraseCr_crWord hlock hop hpg, ← hc, ← hgp]
    rfl
  have hwrite := busCrWrite_startWord (s := s.erasing a b pos .modeWrite g es) hlock hop hflags hp hin
  rw [← hword] at hwrite
  rw [boundary_erasing hop]
  refine (congrArg (State.andThen · _) hwrite).trans ((andThen_of_live (by exact hlive)).trans ?_)
  rw [hword]
  exact enterPoll_erase (s := s.startedPage p)

/-- On a locked block the CR write starts nothing, and the poll follows (R135, R212). -/
theorem boundary_modeWrite_of_locked (hlive : s.live = true) (hop : s.op = .none) (hlock : s.lock = true) :
    sequencerTurn (fsmTurn (s.erasing a b pos .modeWrite g es)) =
      s.erasing a b (pos + 1) (erasePollPhase s.cfg) g (es ++ [registerEvent true crOffset (eraseCr g.c g.p)]) := by
  have hwrite := busCrWrite_of_locked (s := s.erasing a b pos .modeWrite g es) (v := eraseCr g.c g.p) hlock
  rw [boundary_erasing hop]
  exact (congrArg (State.andThen · _) hwrite).trans ((andThen_of_live (by exact hlive)).trans enterPoll_erase)

/-! ### The poll -/

/-- A poll read of a busy block within the budget: the next one follows (R177). -/
theorem turn_erasePoll_goesOn (hbusy : s.bsy = true) (hk : k < s.cfg.eraseTimeout.toNat) :
    sequencerTurn (s.erasing a b pos (.poll k) g es) =
      s.erasing a b (pos + 1) (.poll (k + 1)) { g with k := BitVec.ofNat 32 k, s := s.srWord }
        (es ++ [registerEvent false srOffset s.srWord]) :=
  if_pos ⟨hbusy, hk⟩

/-- The last poll read: the block is not busy, or the budget is used up (R177). -/
theorem turn_erasePoll_ends (h : s.bsy = false ∨ s.cfg.eraseTimeout.toNat ≤ k) :
    sequencerTurn (s.erasing a b pos (.poll k) g es) =
      s.erasing a b (pos + 1) .clearAfter { g with k := BitVec.ofNat 32 k, s := s.srWord }
        (es ++ [registerEvent false srOffset s.srWord]) := by
  refine if_neg fun ⟨hbusy, hk⟩ => ?_
  obtain hidle | hlast := h
  · exact Bool.false_ne_true (hidle.symm.trans hbusy)
  · exact Nat.not_lt.mpr hlast hk

/-- While the completion step does not come, the poll reads BSY = 1 again and again (R155, R177). -/
theorem reaches_busyReads (hlive : s.live = true) (hop : s.op ≠ .none) (hflags : s.flags = 0)
    (hk : k + n ≤ s.cfg.eraseTimeout.toNat) (hwaits : s.waitsFor 0 n = true) :
    ∃ pos' g', g'.place = g.place ∧
      Reaches n (s.erasing a b pos (.poll k) g es)
        ((s.afterDraws n).erasing a b pos' (.poll (k + n)) g' (es ++ List.replicate n busyRead)) := by
  induction n with
  | zero =>
    rw [afterDraws_zero, List.replicate_zero, List.append_nil]
    exact ⟨pos, g, rfl, .refl _⟩
  | succ n ih =>
    obtain ⟨hfirst, hwait⟩ : s.waitsFor 0 n = true ∧ drawBit (s.drawAt n) = false := by
      simpa [waitsFor_add] using hwaits
    obtain ⟨pos', g', hplace, hreach⟩ := ih (by omega) hfirst
    have hdraw : drawBit ((s.afterDraws n).drawAt 0) = false := by rwa [drawAt_afterDraws]
    have hturn : sequencerTurn (fsmTurn ((s.afterDraws n).erasing a b pos' (.poll (k + n)) g'
        (es ++ List.replicate n busyRead))) = (s.afterDraws (n + 1)).erasing a b (pos' + 1) (.poll (k + n + 1))
          { g' with k := BitVec.ofNat 32 (k + n), s := s.srWord } (es ++ List.replicate (n + 1) busyRead) := by
      rw [boundary_erasing_turn, turnEvents_of_wait hdraw, List.append_nil,
        fsmTurn_of_wait (s := s.afterDraws n) hlive hop hdraw, afterDraws_afterDraws,
        turn_erasePoll_goesOn (s := s.afterDraws (n + 1)) (decide_eq_true hop) (by rw [State.afterDraws_cfg]; omega),
        statusRead_of_busy (s := s.afterDraws (n + 1)) hop hflags, List.append_assoc, List.replicate_succ']
      rfl
    exact ⟨pos' + 1, { g' with k := BitVec.ofNat 32 (k + n), s := s.srWord }, hplace,
      hreach.trans (reaches_of_turn hturn hlive)⟩

/-- A poll that the completion step meets within the budget, after `w` busy reads, is done (R155, R177). -/
theorem reaches_pollDone (hlive : s.live = true) (hop : s.op ≠ .none) (hflags : s.flags = 0)
    (hw : w < s.cfg.eraseTimeout.toNat) (hdraws : s.completesAfter 0 w = true) :
    ∃ pos' g', g'.place = g.place ∧ g'.s[16] = false ∧
      Reaches (w + 1) (s.erasing a b pos (.poll 1) g es)
        ((fsmComplete (s.afterDraws (w + 1))).erasing a b pos' .clearAfter g' (es ++ List.replicate w busyRead ++
          [.completion s.op] ++ [registerEvent false srOffset (fsmComplete (s.afterDraws (w + 1))).srWord])) := by
  obtain ⟨hwaits, hdone⟩ := (completesAfter_iff 0 w).mp hdraws
  obtain ⟨pos', g', hplace, hreach⟩ := reaches_busyReads (a := a) (b := b) (pos := pos) (g := g) (es := es) (k := 1) hlive hop
    hflags (by omega) hwaits
  have hdraw : drawBit ((s.afterDraws w).drawAt 0) = true := by rwa [drawAt_afterDraws, Nat.add_comm]
  have hidle : (fsmComplete (s.afterDraws (w + 1))).bsy = false := by simp [State.bsy, fsmComplete_op]
  have hturn := boundary_erasing_turn (s := s.afterDraws w) (a := a) (b := b) (pos := pos') (phase := .poll (1 + w)) (g := g')
    (es := es ++ List.replicate w busyRead)
  rw [turnEvents_of_completion (s := s.afterDraws w) hlive hop hdraw,
    fsmTurn_of_completion (s := s.afterDraws w) hlive hop hdraw, afterDraws_afterDraws, turn_erasePoll_ends (.inl hidle)]
    at hturn
  exact ⟨pos' + 1, { g' with k := BitVec.ofNat 32 (1 + w), s := (fsmComplete (s.afterDraws (w + 1))).srWord }, hplace,
    (srWord_bsy _).trans hidle, hreach.trans (reaches_of_turn hturn ((fsmComplete_live _).trans hlive))⟩

/-- A poll that the completion step does not meet within the budget expires after the budget's SR reads (R177). -/
theorem reaches_pollExpired (hlive : s.live = true) (hop : s.op ≠ .none) (hflags : s.flags = 0)
    (hwaits : s.waitsFor 0 s.cfg.eraseTimeout.toNat = true) :
    ∃ pos' g', g'.place = g.place ∧ pollExpired s.cfg (eraseRun a b pos' .clearAfter g') = true ∧
      Reaches s.cfg.eraseTimeout.toNat (s.erasing a b pos (erasePollPhase s.cfg) g es)
        ((s.afterDraws s.cfg.eraseTimeout.toNat).erasing a b pos' .clearAfter g'
          (es ++ List.replicate s.cfg.eraseTimeout.toNat busyRead)) := by
  cases hbudget : s.cfg.eraseTimeout.toNat with
  | zero =>
    have hzero : s.cfg.eraseTimeout = 0 := BitVec.eq_of_toNat_eq hbudget
    rw [afterDraws_zero, List.replicate_zero, List.append_nil, erasePollPhase, if_pos hzero]
    exact ⟨pos, g, rfl, Bool.or_eq_true_iff.mpr (.inl (decide_eq_true hzero)), .refl _⟩
  | succ n =>
    have hsome : s.cfg.eraseTimeout ≠ 0 := fun h => by simp [h] at hbudget
    obtain ⟨hfirst, hwait⟩ : s.waitsFor 0 n = true ∧ drawBit (s.drawAt n) = false := by
      simpa [hbudget, waitsFor_add] using hwaits
    obtain ⟨pos', g', hplace, hreach⟩ := reaches_busyReads (a := a) (b := b) (pos := pos) (g := g) (es := es) (k := 1) hlive hop
      hflags (by omega) hfirst
    have hdraw : drawBit ((s.afterDraws n).drawAt 0) = false := by rwa [drawAt_afterDraws]
    have hbusy : s.bsy = true := decide_eq_true hop
    have hturn := boundary_erasing_turn (s := s.afterDraws n) (a := a) (b := b) (pos := pos') (phase := .poll (1 + n))
      (g := g') (es := es ++ List.replicate n busyRead)
    rw [turnEvents_of_wait hdraw, List.append_nil, fsmTurn_of_wait (s := s.afterDraws n) hlive hop hdraw, afterDraws_afterDraws,
      turn_erasePoll_ends (.inr (by rw [State.afterDraws_cfg]; omega)),
      statusRead_of_busy (s := s.afterDraws (n + 1)) hop hflags, List.append_assoc, ← List.replicate_succ'] at hturn
    rw [erasePollPhase, if_neg hsome]
    exact ⟨pos' + 1, { g' with k := BitVec.ofNat 32 (1 + n), s := s.srWord }, hplace,
      Bool.or_eq_true_iff.mpr (.inr ((srWord_bsy s).trans hbusy)), hreach.trans (reaches_of_turn hturn hlive)⟩

end

end Sys2Proof.Machine
end

section
/-! SUPPORT. The cleanup after a page's poll, whatever the flash FSM does meanwhile, and what follows it (43_erase.md R210,
41_sequencer.md R178, 40_register_bus.md R155). -/

namespace Sys2Proof.Machine

/-! ### Up to the CR write -/

/-- The block after the status clear that follows the poll, with the flash FSM's turn before it. -/
def State.statusCleared (s : State) : State := { fsmTurn s with flags := 0 }

/-- The block at the CR read of the cleanup. -/
def State.atCleanupRead (s : State) : State := fsmTurn s.statusCleared

/-- The block at the CR write of the cleanup. -/
def State.atCleanupWrite (s : State) : State := fsmTurn s.atCleanupRead

/-- What `HISTORY` takes from the end of the poll to the CR write of the cleanup. -/
def State.cleanupEvents (s : State) : List Event :=
  s.turnEvents ++ [registerEvent true srOffset srClear] ++ s.statusCleared.turnEvents ++
    [registerEvent false crOffset s.atCleanupRead.crWord] ++ s.atCleanupRead.turnEvents

section
variable {s : State} {a b : Word} {pos : Nat} {g : Regs} {es : List Event}

theorem turn_erase_clearAfter :
    sequencerTurn (s.erasing a b pos .clearAfter g es) =
      { s with flags := 0 }.erasing a b (pos + 1) .cleanupRead
        { g with r := pollExpired s.cfg (eraseRun a b pos .clearAfter g) } (es ++ [registerEvent true srOffset srClear]) := by
  change stepClearAfter (eraseRun a b pos .clearAfter g) (s.withTrace _ es) = _
  rw [stepClearAfter, busSrWrite, clearFlags_srClear]
  rfl

theorem turn_erase_cleanupRead :
    sequencerTurn (s.erasing a b pos .cleanupRead g es) =
      s.erasing a b (pos + 1) .cleanupWrite { g with c := s.crWord } (es ++ [registerEvent false crOffset s.crWord]) := rfl

/-- The registers at the CR write of the cleanup: the poll's result and the CR image. -/
def State.cleanupRegs (expired : Bool) (g : Regs) (s : State) : Regs := { g with r := expired, c := s.atCleanupRead.crWord }

/-- After its poll a page comes to the CR write of its cleanup (R210 step 4). -/
theorem reaches_cleanupWrite_of_page (hlive : s.live = true) {expired : Bool}
    (hpoll : pollExpired s.cfg (eraseRun a b pos .clearAfter g) = expired) :
    ∃ x, Reaches 2 (s.erasing a b pos .clearAfter g es) x ∧
      sequencerTurn (fsmTurn x) = sequencerTurn
        (s.atCleanupWrite.erasing a b (pos + 2) .cleanupWrite (s.cleanupRegs expired g) (es ++ s.cleanupEvents)) := by
  have hlive₁ : s.statusCleared.live = true := (fsmTurn_live s).trans hlive
  have hlive₂ : s.atCleanupRead.live = true := (fsmTurn_live _).trans hlive₁
  have hpoll' : pollExpired (fsmTurn s).cfg (eraseRun a b pos .clearAfter g) = expired := by rwa [fsmTurn_cfg]
  have hclear := boundary_erasing_turn (s := s) (a := a) (b := b) (pos := pos) (phase := .clearAfter) (g := g) (es := es)
  rw [turn_erase_clearAfter, hpoll'] at hclear
  have hread := boundary_erasing_turn (s := s.statusCleared) (a := a) (b := b) (pos := pos + 1) (phase := .cleanupRead)
    (g := { g with r := expired }) (es := es ++ s.turnEvents ++ [registerEvent true srOffset srClear])
  rw [turn_erase_cleanupRead] at hread
  refine ⟨_, (reaches_of_turn hclear hlive₁).trans (reaches_of_turn hread hlive₂), boundary_erasing_turn.trans ?_⟩
  simp only [State.cleanupEvents, List.append_assoc]
  rfl

/-- The CR write of the cleanup, and then the next page or the response (R210 steps 4 and 5). -/
theorem turn_erase_cleanupWrite {t : State} {v : Word} (hv : g.c &&& ~~~ crPer = v)
    (hwrite : busCrWrite v (s.erasing a b pos .cleanupWrite g es) =
      (t.erasing a b pos .cleanupWrite g es).logRegister true crOffset (some v)) (hlive : t.live = true) :
    sequencerTurn (s.erasing a b pos .cleanupWrite g es) =
      nextUnit (eraseRun a b pos .cleanupWrite g)
        (t.erasing a b pos .cleanupWrite g (es ++ [registerEvent true crOffset v])) := by
  subst hv
  exact (congrArg (State.andThen · _) hwrite).trans (andThen_of_live hlive)

/-! ### With nothing in flight -/

section
variable (hop : s.op = .none)
include hop

theorem statusCleared_of_no_op : s.statusCleared = { s with flags := 0 } := by
  rw [State.statusCleared, fsmTurn_of_no_op hop]

theorem atCleanupRead_of_no_op : s.atCleanupRead = { s with flags := 0 } := by
  rw [State.atCleanupRead, statusCleared_of_no_op hop, fsmTurn_of_no_op (s := { s with flags := 0 }) hop]

theorem atCleanupWrite_of_no_op : s.atCleanupWrite = { s with flags := 0 } := by
  rw [State.atCleanupWrite, atCleanupRead_of_no_op hop, fsmTurn_of_no_op (s := { s with flags := 0 }) hop]

theorem cleanupEvents_of_no_op :
    s.cleanupEvents = [registerEvent true srOffset srClear, registerEvent false crOffset s.crWord] := by
  rw [State.cleanupEvents, atCleanupRead_of_no_op hop, statusCleared_of_no_op hop, turnEvents_of_no_op hop,
    turnEvents_of_no_op (s := { s with flags := 0 }) hop]
  rfl

end

/-! ### With the erase still in flight -/

section
variable (hlive : s.live = true) (hop : s.op ≠ .none) (hflags : s.flags = 0) (hwaits : s.waitsFor 0 3 = true)
include hlive hop hflags hwaits

theorem cleanup_of_waits :
    s.atCleanupRead = s.afterDraws 2 ∧ s.atCleanupWrite = s.afterDraws 3 ∧
      s.cleanupEvents = [registerEvent true srOffset srClear, registerEvent false crOffset s.crWord] := by
  obtain ⟨h₀, h₁, h₂⟩ : drawBit (s.drawAt 0) = false ∧ drawBit ((s.afterDraws 1).drawAt 0) = false ∧
      drawBit ((s.afterDraws 2).drawAt 0) = false := by
    simpa [State.waitsFor, List.range_succ, and_assoc] using hwaits
  have hclear : s.statusCleared = s.afterDraws 1 := by
    rw [State.statusCleared, fsmTurn_of_wait hlive hop h₀, ← hflags]
    rfl
  have hread : s.atCleanupRead = s.afterDraws 2 := by
    rw [State.atCleanupRead, hclear, fsmTurn_of_wait (s := s.afterDraws 1) hlive hop h₁, afterDraws_afterDraws]
  refine ⟨hread, ?_, ?_⟩
  · rw [State.atCleanupWrite, hread, fsmTurn_of_wait (s := s.afterDraws 2) hlive hop h₂, afterDraws_afterDraws]
  · rw [State.cleanupEvents, hclear, hread, turnEvents_of_wait h₀, turnEvents_of_wait h₁, turnEvents_of_wait h₂]
    rfl

end

/-! ### What follows the cleanup -/

section
variable {first i : Nat}

theorem nextUnit_of_expired (hr : g.r = true) (r : Run) (hregs : r.regs = g) : nextUnit r s = s.raiseTimeout := by
  rw [nextUnit, hregs, if_pos hr]

theorem nextPage_goesOn (hr : g.r = false) (hfirst : firstPage s.cfg g = first) (hp : g.p.toNat = first + i)
    (hmore : i + 1 < b.toNat) :
    nextUnit (eraseRun a b pos .cleanupWrite g) (s.erasing a b pos .cleanupWrite g es) =
      s.erasing a b (pos + 1) (.clearBefore (first + (i + 1))) g es := by
  have hnext : g.p.toNat + 1 < firstPage s.cfg g + b.toNat := by omega
  rw [← Nat.add_assoc, ← hp]
  simp only [nextUnit, eraseRun, hr]
  exact if_pos hnext

theorem nextPage_ends (hr : g.r = false) (hfirst : firstPage s.cfg g = first) (hp : g.p.toNat = first + i)
    (hlast : i + 1 = b.toNat) :
    nextUnit (eraseRun a b pos .cleanupWrite g) (s.erasing a b pos .cleanupWrite g es) =
      (s.erasing a b pos .cleanupWrite g es).respond .ok 0 [] := by
  have hend : ¬ g.p.toNat + 1 < firstPage s.cfg g + b.toNat := by omega
  simp only [nextUnit, eraseRun, hr]
  exact if_neg hend

end

end

end Sys2Proof.Machine
end

section
/-! SUPPORT. What a whole page of ERASE does: a page whose erase completes in time, a page whose poll expires, and a page of a locked
block (43_erase.md R210 to R212). -/

namespace Sys2Proof.Machine

theorem pollExpired_of_eraseDone {c : Config} {a b : Word} {pos : Nat} {g : Regs} (hbudget : c.eraseTimeout ≠ 0)
    (hs : g.s[16] = false) : pollExpired c (eraseRun a b pos .clearAfter g) = false :=
  Bool.or_eq_false_iff.mpr ⟨decide_eq_false hbudget, hs⟩

/-! ### The busy reads of a `HISTORY` -/

/-- How many SR reads returned BSY = 1 and no flag. -/
def busyReadCount (es : List Event) : Nat := (es.filter Event.isBusyRead).length

theorem busyReadCount_append (es es' : List Event) : busyReadCount (es ++ es') = busyReadCount es + busyReadCount es' := by
  simp [busyReadCount]

@[simp] theorem isBusyRead_busyRead : busyRead.isBusyRead = true := by decide

@[simp] theorem isBusyRead_completion (op : Op) : Event.isBusyRead (.completion op) = false := rfl

/-- No write has the descriptor of an SR read. -/
theorem registerDescriptor_write_ne (o : BitVec 26) : registerDescriptor true o ≠ 0x08000010 := fun h =>
  absurd ((descriptorWrites_descriptor true spaceRegister widthWord o).symm.trans (congrArg descriptorWrites h)) (by decide)

@[simp] theorem isBusyRead_write (o : BitVec 26) (v : Word) : (registerEvent true o v).isBusyRead = false := by
  refine decide_eq_false fun h => ?_
  obtain ⟨hdescriptor, -⟩ := Event.bus.inj h
  exact registerDescriptor_write_ne o hdescriptor

@[simp] theorem isBusyRead_crRead (v : Word) : (registerEvent false crOffset v).isBusyRead = false := by
  refine decide_eq_false fun h => ?_
  obtain ⟨hdescriptor, -⟩ := Event.bus.inj h
  exact absurd hdescriptor (by decide)

theorem isBusyRead_of_no_op {s : State} (hop : s.op = .none) : (registerEvent false srOffset s.srWord).isBusyRead = false := by
  refine decide_eq_false fun h => ?_
  obtain ⟨-, -, hvalue⟩ := Event.bus.inj h
  have hbit : s.srWord[16] = true := by rw [Option.some.inj hvalue]; decide
  simp [State.bsy, hop] at hbit

/-! ### A page whose erase completes in time -/

/-- The block after a page of ERASE whose erase completed after `n` draws: cleaned up, with nothing in flight (R210 step 4). -/
def State.afterPage (p n : Nat) (s : State) : State :=
  { fsmComplete ((s.startedPage p).afterDraws n) with flags := 0, per := false, latch := none }

section
variable {s : State} {a b : Word} {p w pos : Nat} {g : Regs} {es : List Event}

/-- What `HISTORY` takes from the status clear of a page to the start of its erase. -/
def State.startEvents (s : State) (p : Nat) : List Event :=
  [registerEvent true srOffset srClear, registerEvent false crOffset s.crWord, registerEvent true crOffset (startWord p)]

/-- On an unlocked block with PG clear ERASE starts the erase of a whole page and comes to its poll (R210 steps 1 and 2). -/
theorem reaches_poll_of_page (hlive : s.live = true) (hlock : s.lock = false) (hop : s.op = .none) (hpg : s.pg = false)
    (hp : p ≤ 63) (hin : (p + 1) * s.cfg.page ≤ s.cfg.arraySize) :
    ∃ g', g'.place = (g.rs, BitVec.ofNat 32 p) ∧
      Reaches 3 (s.erasing a b pos (.clearBefore p) g es)
        ((s.startedPage p).erasing a b (pos + 3) (erasePollPhase s.cfg) g' (es ++ s.startEvents p)) := by
  have hstart := boundary_modeWrite_of_unlocked (s := { s with flags := 0 }) (a := a) (b := b) (pos := pos + 2)
    (g := { g with p := BitVec.ofNat 32 p, c := s.crWord })
    (es := es ++ [registerEvent true srOffset srClear] ++ [registerEvent false crOffset s.crWord]) hlive hop hlock hpg rfl rfl rfl
    hp hin
  simp only [List.append_assoc] at hstart
  have hclear := reaches_modeWrite_of_page (a := a) (b := b) (pos := pos) (g := g) (es := es) hlive hop hp
  simp only [List.append_assoc] at hclear
  exact ⟨{ g with p := BitVec.ofNat 32 p, c := s.crWord }, rfl, hclear.trans (reaches_of_turn hstart hlive)⟩

/-- A page of an unlocked block whose erase completes after `w` boundaries, within the budget, comes to the end of its cleanup
(R155, R210). -/
theorem reaches_end_of_page (hlive : s.live = true) (hlock : s.lock = false) (hop : s.op = .none) (hpg : s.pg = false)
    (hp : p ≤ 63) (hin : (p + 1) * s.cfg.page ≤ s.cfg.arraySize) (hw : w < s.cfg.eraseTimeout.toNat)
    (hdraws : s.completesAfter 0 w = true) :
    ∃ pos' g' es' x, g'.place = (g.rs, BitVec.ofNat 32 p) ∧ g'.r = false ∧
      busyReadCount es' = busyReadCount es + w ∧
      es'.getLast? = some (registerEvent true crOffset (s.afterPage p (w + 1)).crWord) ∧
      Reaches (w + 6) (s.erasing a b pos (.clearBefore p) g es) x ∧
      sequencerTurn (fsmTurn x) = nextUnit (eraseRun a b pos' .cleanupWrite g')
        ((s.afterPage p (w + 1)).erasing a b pos' .cleanupWrite g' es') := by
  have hbudget : s.cfg.eraseTimeout ≠ 0 := fun hzero => by simp [hzero] at hw
  obtain ⟨g₁, hplace₁, hpoll⟩ := reaches_poll_of_page (a := a) (b := b) (pos := pos) (g := g) (es := es) hlive hlock hop hpg hp hin
  rw [erasePollPhase, if_neg hbudget] at hpoll
  obtain ⟨pos₂, g₂, hplace₂, hs₂, hdone⟩ := reaches_pollDone (s := s.startedPage p) (a := a) (b := b) (pos := pos + 3) (g := g₁)
    (es := es ++ s.startEvents p) hlive (fun h => by cases h) rfl hw hdraws
  let done := fsmComplete ((s.startedPage p).afterDraws (w + 1))
  have hdoneOp : done.op = .none := fsmComplete_op _
  have hdoneLive : done.live = true := (fsmComplete_live _).trans hlive
  have hdoneLock : done.lock = false := (fsmComplete_lock _).trans hlock
  have hdonePg : done.pg = false := fsmComplete_pg _
  have hdoneCfg : done.cfg = s.cfg := fsmComplete_cfg _
  let es₂ := es ++ s.startEvents p ++ List.replicate w busyRead ++ [.completion (s.startedPage p).op] ++
    [registerEvent false srOffset done.srWord]
  obtain ⟨x, hclean, hend⟩ := reaches_cleanupWrite_of_page (s := done) (a := a) (b := b) (pos := pos₂) (g := g₂) (es := es₂)
    hdoneLive (pollExpired_of_eraseDone (hdoneCfg ▸ hbudget) hs₂)
  let clean : State := { done with flags := 0 }
  let g₃ := done.cleanupRegs false g₂
  let es₃ := es₂ ++ [registerEvent true srOffset srClear, registerEvent false crOffset done.crWord]
  have hc : g₃.c = clean.crWord := congrArg State.crWord (atCleanupRead_of_no_op hdoneOp)
  have hwrite := busCrWrite_clearPer (s := clean.erasing a b (pos₂ + 2) .cleanupWrite g₃ es₃) hdoneLock hdoneOp hdonePg
  have hlast := turn_erase_cleanupWrite (s := clean) (t := s.afterPage p (w + 1)) (congrArg (· &&& ~~~ crPer) hc) hwrite
    hdoneLive
  rw [atCleanupWrite_of_no_op hdoneOp, cleanupEvents_of_no_op hdoneOp] at hend
  refine ⟨pos₂ + 2, g₃, _, x, hplace₂.trans hplace₁, rfl, ?_, ?_, ((hpoll.trans hdone).trans hclean).mono (by omega),
    hend.trans hlast⟩
  · simp [es₃, es₂, State.startEvents, busyReadCount, isBusyRead_of_no_op hdoneOp]
  · rw [List.getLast?_append]
    exact congrArg (fun v => some (registerEvent true crOffset v)) (crWord_and_not_crPer (s := clean))

/-! ### A page whose poll expires -/

/-- The block after a page of ERASE whose poll expired after `n` draws: its erase is still in flight, and aborted (R211). -/
def State.abortedPage (p n : Nat) (s : State) : State :=
  { (s.startedPage p).afterDraws n with per := false, aborted := true }

/-- What `HISTORY` takes from a page whose poll expires. -/
def State.timeoutEvents (s : State) (p : Nat) : List Event :=
  s.startEvents p ++ List.replicate s.cfg.eraseTimeout.toNat busyRead ++
    [registerEvent true srOffset srClear, registerEvent false crOffset (startWord p), registerEvent true crOffset (abortWord p)]

/-- A page of an unlocked block whose completion step comes neither in the poll nor in the cleanup ends ERASE with Timeout (R177,
R210, R211). -/
theorem reaches_timeout_of_page (hlive : s.live = true) (hlock : s.lock = false) (hop : s.op = .none) (hpg : s.pg = false)
    (hp : p ≤ 63) (hin : (p + 1) * s.cfg.page ≤ s.cfg.arraySize)
    (hwaits : s.waitsFor 0 (s.cfg.eraseTimeout.toNat + 3) = true) :
    ∃ x, Reaches (s.cfg.eraseTimeout.toNat + 5) (s.erasing a b pos (.clearBefore p) g es) x ∧
      sequencerTurn (fsmTurn x) = State.raiseTimeout
        { s.abortedPage p (s.cfg.eraseTimeout.toNat + 3) with history := es ++ s.timeoutEvents p } := by
  obtain ⟨hpolls, hcleanup⟩ : s.waitsFor 0 s.cfg.eraseTimeout.toNat = true ∧ s.waitsFor s.cfg.eraseTimeout.toNat 3 = true := by
    simpa [waitsFor_add] using hwaits
  obtain ⟨g₁, -, hpoll⟩ := reaches_poll_of_page (a := a) (b := b) (pos := pos) (g := g) (es := es) hlive hlock hop hpg hp hin
  obtain ⟨pos₂, g₂, -, hexpired, hdone⟩ := reaches_pollExpired (s := s.startedPage p) (a := a) (b := b) (pos := pos + 3) (g := g₁)
    (es := es ++ s.startEvents p) hlive (fun h => by cases h) rfl hpolls
  let late := (s.startedPage p).afterDraws s.cfg.eraseTimeout.toNat
  obtain ⟨hread, hwrite, hevents⟩ := cleanup_of_waits (s := late) hlive (fun h => by cases h) rfl
    (by rw [waitsFor_congr (drawAt_afterDraws (s.startedPage p) s.cfg.eraseTimeout.toNat)]; exact hcleanup)
  let es₂ := es ++ s.startEvents p ++ List.replicate s.cfg.eraseTimeout.toNat busyRead
  obtain ⟨x, hclean, hend⟩ := reaches_cleanupWrite_of_page (s := late) (a := a) (b := b) (pos := pos₂) (g := g₂) (es := es₂)
    hlive hexpired
  let g₃ := late.cleanupRegs true g₂
  have hcr : late.crWord = startWord p := startedPage_crWord (s := s) hlock hp
  have hc : g₃.c &&& ~~~ crPer = abortWord p := by
    have hc : g₃.c = startWord p := (congrArg State.crWord hread).trans hcr
    rw [hc, startWord_and_not_crPer]
  have habort := busCrWrite_abortWord (s := (late.afterDraws 3).erasing a b (pos₂ + 2) .cleanupWrite g₃ (es₂ ++ late.cleanupEvents))
    hlock rfl rfl hp
  have hlast := turn_erase_cleanupWrite (t := s.abortedPage p (s.cfg.eraseTimeout.toNat + 3)) hc
    (by rw [State.abortedPage, ← afterDraws_afterDraws]; exact habort) hlive
  rw [nextUnit_of_expired (g := g₃) rfl _ rfl, hevents, hcr] at hlast
  rw [hwrite, hevents, hcr] at hend
  have hbound : 3 + s.cfg.eraseTimeout.toNat + 2 ≤ s.cfg.eraseTimeout.toNat + 5 := by omega
  refine ⟨x, ((hpoll.trans hdone).trans hclean).mono hbound, hend.trans (hlast.trans ?_)⟩
  simp only [es₂, State.timeoutEvents, List.append_assoc]
  rfl

/-! ### A page of a locked block -/

/-- A page of a locked block is not erased: its first poll read finds the block idle, and only the status flags change (R135,
R212). -/
theorem reaches_end_of_locked_page (hlive : s.live = true) (hlock : s.lock = true) (hop : s.op = .none) (hp : p ≤ 63)
    (hbudget : s.cfg.eraseTimeout ≠ 0) :
    ∃ pos' g' es' x, g'.place = (g.rs, BitVec.ofNat 32 p) ∧ g'.r = false ∧
      es'.getLast? = some (registerEvent true crOffset (s.crWord &&& ~~~ crPer)) ∧
      Reaches 6 (s.erasing a b pos (.clearBefore p) g es) x ∧
      sequencerTurn (fsmTurn x) = nextUnit (eraseRun a b pos' .cleanupWrite g')
        ({ s with flags := 0 }.erasing a b pos' .cleanupWrite g' es') := by
  let idle : State := { s with flags := 0 }
  let g₁ : Regs := { g with p := BitVec.ofNat 32 p, c := s.crWord }
  let es₁ := es ++ [registerEvent true srOffset srClear] ++ [registerEvent false crOffset s.crWord]
  have hclear := reaches_modeWrite_of_page (a := a) (b := b) (pos := pos) (g := g) (es := es) hlive hop hp
  have hmode := boundary_modeWrite_of_locked (s := idle) (a := a) (b := b) (pos := pos + 2) (g := g₁) (es := es₁) hlive hop hlock
  rw [erasePollPhase, if_neg hbudget] at hmode
  let es₂ := es₁ ++ [registerEvent true crOffset (eraseCr g₁.c g₁.p)]
  have hidle : idle.bsy = false := by simp [State.bsy, idle, hop]
  have hpoll := boundary_erasing_turn (s := idle) (a := a) (b := b) (pos := pos + 3) (phase := .poll 1) (g := g₁) (es := es₂)
  rw [fsmTurn_of_no_op (s := idle) hop, turnEvents_of_no_op (s := idle) hop, List.append_nil, turn_erasePoll_ends (.inl hidle)] at hpoll
  let g₂ : Regs := { g₁ with k := BitVec.ofNat 32 1, s := idle.srWord }
  let es₃ := es₂ ++ [registerEvent false srOffset idle.srWord]
  obtain ⟨x, hclean, hend⟩ := reaches_cleanupWrite_of_page (s := idle) (a := a) (b := b) (pos := pos + 4) (g := g₂) (es := es₃)
    hlive (pollExpired_of_eraseDone hbudget ((srWord_bsy idle).trans hidle))
  let g₃ := idle.cleanupRegs false g₂
  have hc : g₃.c &&& ~~~ crPer = idle.crWord &&& ~~~ crPer :=
    congrArg (State.crWord · &&& ~~~ crPer) (atCleanupRead_of_no_op (s := idle) hop)
  have hlast := turn_erase_cleanupWrite (s := idle) (t := idle) (a := a) (b := b) (pos := pos + 6) (es := es₃ ++ idle.cleanupEvents)
    hc (busCrWrite_of_locked hlock) hlive
  rw [atCleanupWrite_of_no_op (s := idle) hop] at hend
  refine ⟨pos + 6, g₃, _, x, rfl, rfl, ?_, ((hclear.trans (reaches_of_turn hmode hlive)).trans (reaches_of_turn hpoll hlive)).trans
    hclean, hend.trans hlast⟩
  rw [List.getLast?_append]
  rfl

end

end Sys2Proof.Machine
end

section
/-! SUPPORT. ERASE page after page: whatever holds of the block between its pages, the run comes to a page, to the response, or to a
page above 63 (43_erase.md R210, R213). -/

namespace Sys2Proof.Machine

/-- `P j` holds between the pages of ERASE, when `j` pages are behind: the block is live and idle there, and each of the first `m`
pages leads from `P j` to the end of its cleanup with `P (j + 1)`. -/
structure PageLoop (c : Config) (a b : Word) (m : Nat) (P : Nat → List Event → State → Prop) : Prop where
  live : ∀ {j es t}, P j es t → t.live = true
  op : ∀ {j es t}, P j es t → t.op = .none
  cfg : ∀ {j es t}, P j es t → t.cfg = c
  page : ∀ {j pos g es t}, j < m → P j es t →
    ∃ pos' g' es' x u, g'.place = (g.rs, BitVec.ofNat 32 (a.toNat / c.page + j)) ∧ g'.r = false ∧ P (j + 1) es' u ∧
      Reaches (c.eraseTimeout.toNat + 5) (t.erasing a b pos (.clearBefore (a.toNat / c.page + j)) g es) x ∧
      sequencerTurn (fsmTurn x) =
        nextUnit (eraseRun a b pos' .cleanupWrite g') (u.erasing a b pos' .cleanupWrite g' es')

theorem pageFloor_add_le {c : Config} {a b i : Nat} (hin : a / c.page * c.page + b * c.page ≤ c.arraySize) (hi : i < b) :
    (a / c.page + i + 1) * c.page ≤ c.arraySize := by
  rw [← Nat.add_mul] at hin
  exact (Nat.mul_le_mul_right _ (by omega)).trans hin

section
variable {s : State} {a b : Word} {m j pos : Nat} {g : Regs} {es : List Event} {P : Nat → List Event → State → Prop}

theorem firstPage_congr {c : Config} {g g' : Regs} {v : Word} (h : g'.place = (g.rs, v)) : firstPage c g' = firstPage c g := by
  obtain ⟨hrs, -⟩ := Prod.mk.inj h
  rw [firstPage, hrs, firstPage]

theorem place_toNat {g g' : Regs} {p : Nat} (h : g'.place = (g.rs, BitVec.ofNat 32 p)) (hp : p < 2 ^ 32) : g'.p.toNat = p := by
  obtain ⟨-, hgp⟩ := Prod.mk.inj h
  rw [hgp, BitVec.toNat_ofNat, Nat.mod_eq_of_lt hp]

/-- ERASE comes to its `j`-th page. -/
theorem PageLoop.reaches_page (h : PageLoop s.cfg a b m P) (hstart : P 0 es s) (hg : firstPage s.cfg g = a.toNat / s.cfg.page)
    (hsmall : a.toNat / s.cfg.page + b.toNat < 2 ^ 32) (hj : j ≤ m) (hjb : j < b.toNat) :
    ∃ pos' g' es' t, firstPage s.cfg g' = a.toNat / s.cfg.page ∧ P j es' t ∧
      Reaches ((s.cfg.eraseTimeout.toNat + 6) * j) (s.erasing a b pos (.clearBefore (a.toNat / s.cfg.page)) g es)
        (t.erasing a b pos' (.clearBefore (a.toNat / s.cfg.page + j)) g' es') := by
  induction j with
  | zero => exact ⟨pos, g, es, s, hg, hstart, .refl _⟩
  | succ j ih =>
    obtain ⟨pos₁, g₁, es₁, t, hg₁, ht, hreach⟩ := ih (by omega) (by omega)
    obtain ⟨pos₂, g₂, es₂, x, u, hplace, hr, hu, hpage, hend⟩ := h.page (pos := pos₁) (g := g₁) hj ht
    have hg₂ : firstPage u.cfg g₂ = a.toNat / s.cfg.page := by rw [h.cfg hu, firstPage_congr hplace, hg₁]
    rw [nextPage_goesOn hr hg₂ (place_toNat hplace (by omega)) hjb] at hend
    have hlive : u.live = true := h.live hu
    refine ⟨pos₂ + 1, g₂, es₂, u, h.cfg hu ▸ hg₂, hu, ((hreach.trans hpage).trans (reaches_of_turn hend hlive)).mono ?_⟩
    rw [Nat.mul_succ]
    omega

/-- ERASE goes through all its pages and responds. -/
theorem PageLoop.reaches_response (h : PageLoop s.cfg a b b.toNat P) (hstart : P 0 es s)
    (hg : firstPage s.cfg g = a.toNat / s.cfg.page) (hsmall : a.toNat / s.cfg.page + b.toNat < 2 ^ 32) (hb : b ≠ 0) :
    ∃ es' x t, P b.toNat es' t ∧
      Reaches ((s.cfg.eraseTimeout.toNat + 6) * b.toNat) (s.erasing a b pos (.clearBefore (a.toNat / s.cfg.page)) g es) x ∧
      sequencerTurn (fsmTurn x) = State.respond .ok 0 [] { t with history := es' } := by
  obtain ⟨n, hn⟩ := Nat.exists_eq_succ_of_ne_zero fun hzero : b.toNat = 0 => hb (BitVec.eq_of_toNat_eq hzero)
  obtain ⟨pos₁, g₁, es₁, t, hg₁, ht, hreach⟩ := h.reaches_page (j := n) (pos := pos) hstart hg hsmall (by omega) (by omega)
  obtain ⟨pos₂, g₂, es₂, x, u, hplace, hr, hu, hpage, hend⟩ := h.page (pos := pos₁) (g := g₁) (by omega) ht
  have hg₂ : firstPage u.cfg g₂ = a.toNat / s.cfg.page := by rw [h.cfg hu, firstPage_congr hplace, hg₁]
  rw [nextPage_ends hr hg₂ (place_toNat hplace (by omega)) hn.symm] at hend
  refine ⟨es₂, x, u, hn ▸ hu, (hreach.trans hpage).mono ?_, hend⟩
  rw [hn, Nat.mul_succ]
  omega

/-! ### From the command's start -/

/-- ERASE of pages in the array, on a quiet block, comes to its first page (R174, R179, R210). -/
theorem reaches_firstPage (hinv : StateInv s) (hquiet : Quiet s) (hb : b ≠ 0)
    (hin : a.toNat / s.cfg.page * s.cfg.page + b.toNat * s.cfg.page ≤ s.cfg.arraySize) :
    ∃ pos g, firstPage s.cfg g = a.toNat / s.cfg.page ∧
      Reaches 2 (s.accept (.erase a b)) (s.discovered.erasing a b pos (.clearBefore (a.toNat / s.cfg.page)) g
        (s.discovered.history ++ [registerEvent false srOffset s.srWord])) := by
  obtain ⟨hadmissible, -, -, -, -, hcache⟩ := stateInv_iff.mp hinv
  obtain ⟨⟨hlive, -⟩, hop⟩ := hquiet
  have hchecked : eraseChecks s.cfg s.discovered.chipSizeCache a b = .busyCheck := by
    have hcount : b.toNat ≠ 0 := fun h => hb (BitVec.eq_of_toNat_eq h)
    have hlength : b.toNat * s.cfg.page ≠ 0 := Nat.mul_ne_zero hcount (page_pos hadmissible).ne'
    rw [eraseChecks, discovered_chipSizeCache_toNat hcache, pageFloor, inRange_of_le hlength hin, if_pos rfl]
  obtain ⟨pos, hstart⟩ := reaches_busyCheck (c := .erase a b) hop hlive rfl hchecked
  obtain ⟨cache, es, hdiscovered⟩ := exists_discovered_eq s
  rw [hdiscovered] at hstart ⊢
  exact ⟨pos + 1, eraseRegs a b s, firstPage_eraseRegs a b s,
    hstart.trans (reaches_of_turn (boundary_busyCheck_erase hop hb) hlive)⟩

theorem discovered_cfg (s : State) : s.discovered.cfg = s.cfg := by
  obtain ⟨cache, es, hdiscovered⟩ := exists_discovered_eq s
  rw [hdiscovered]

theorem pages_lt {c : Config} {first count : Nat} (hc : c.Admissible) (hin : first * c.page + count * c.page ≤ c.arraySize) :
    first + count < 2 ^ 32 := by
  have hpages : first + count ≤ (first + count) * c.page := Nat.le_mul_of_pos_right _ (page_pos hc)
  have hsize := arraySize_le (c := c)
  rw [Nat.add_mul] at hpages
  omega

section
variable (h : PageLoop s.cfg a b m P) (hinv : StateInv s) (hquiet : Quiet s)
  (hin : a.toNat / s.cfg.page * s.cfg.page + b.toNat * s.cfg.page ≤ s.cfg.arraySize)
  (hP : P 0 (s.discovered.history ++ [registerEvent false srOffset s.srWord]) s.discovered)
include h hinv hquiet hin hP

/-- From the command's start ERASE comes to its `j`-th page. -/
theorem PageLoop.reaches_page_of_accept (hj : j ≤ m) (hjb : j < b.toNat) :
    ∃ pos g es t, P j es t ∧
      Reaches ((s.cfg.eraseTimeout.toNat + 6) * j + 2) (s.accept (.erase a b))
        (t.erasing a b pos (.clearBefore (a.toNat / s.cfg.page + j)) g es) := by
  obtain ⟨hadmissible, -⟩ := stateInv_iff.mp hinv
  have hsmall := pages_lt hadmissible hin
  have hb : b ≠ 0 := fun hzero => by simp [hzero] at hjb
  obtain ⟨pos, g, hg, hfirst⟩ := reaches_firstPage hinv hquiet hb hin
  rw [← discovered_cfg s] at h hg hsmall
  obtain ⟨pos', g', es, t, -, ht, hreach⟩ := h.reaches_page (pos := pos) hP hg hsmall hj hjb
  rw [discovered_cfg] at hreach
  exact ⟨pos', g', es, t, ht, (hfirst.trans hreach).mono (Nat.add_comm _ _).le⟩

/-- ERASE that goes through all its pages answers OK with what then holds (R210). -/
theorem PageLoop.exec_ok (hb : b ≠ 0) (hm : m = b.toNat) :
    ∃ es t, P b.toNat es t ∧ exec (.erase a b) s = .next (State.respond .ok 0 [] { t with history := es }) := by
  obtain ⟨hadmissible, -⟩ := stateInv_iff.mp hinv
  have hsmall := pages_lt hadmissible hin
  obtain ⟨pos, g, hg, hfirst⟩ := reaches_firstPage hinv hquiet hb hin
  rw [← discovered_cfg s, hm] at h
  rw [← discovered_cfg s] at hg hsmall
  obtain ⟨es, x, t, ht, hreach, hend⟩ := h.reaches_response (pos := pos) hP hg hsmall hb
  rw [discovered_cfg] at hreach
  have hlive : t.live = true := h.live ht
  exact ⟨es, t, ht, (hfirst.trans hreach).exec_eq rfl hquiet (Nat.add_comm _ _).le hend rfl hlive⟩

/-- ERASE that comes to a page above 63 is refused there (R213). -/
theorem PageLoop.exec_refused (hwide : 63 < a.toNat / s.cfg.page + m) (hmb : m < b.toNat) :
    ∃ es t r, P m es t ∧
      exec (.erase a b) s = .refused (.recorded .pageIndexWidth ((t.withTrace r es).refuse .pageIndexWidth)) := by
  obtain ⟨pos, g, es, t, ht, hreach⟩ := h.reaches_page_of_accept hinv hquiet hin hP le_rfl hmb
  have hlive : t.live = true := h.live ht
  obtain ⟨hfault, -⟩ := live_iff.mp hlive
  let r : Run := eraseRun a b pos (.clearBefore (a.toNat / s.cfg.page + m))
    { g with p := BitVec.ofNat 32 (a.toNat / s.cfg.page + m) }
  have hend : sequencerTurn (fsmTurn (t.erasing a b pos (.clearBefore (a.toNat / s.cfg.page + m)) g es)) =
      (t.withTrace r es).refuse .pageIndexWidth :=
    (boundary_erasing (h.op ht)).trans (if_pos hwide)
  have hbound : (s.cfg.eraseTimeout.toNat + 6) * m + 2 ≤ commandBound s.cfg (.erase a b) :=
    Nat.add_le_add_right (Nat.mul_le_mul_left _ hmb.le) 2
  exact ⟨es, t, r, ht, (hreach.exec_eq_outcome rfl hquiet hbound hend (refuse_live _ _)).trans (outcome_of_refused hfault rfl)⟩

end

end

end Sys2Proof.Machine
end

section
/-! SUPPORT. The block between the pages of ERASE: erased page by page while unlocked, unchanged while locked (43_erase.md R210 to R212,
40_register_bus.md R156, R160, R161). -/

namespace Sys2Proof.Machine

/-! ### The block after a page whose erase completed -/

/-- What ERASE leaves unchanged until it responds. -/
def State.keptByErase (s : State) :=
  (s.cfg, s.lock, s.keyStage, s.chipSizeCache, s.requests, s.resp, s.fault, s.refused)

theorem keptByErase_eq_iff {s t : State} :
    t.keptByErase = s.keptByErase ↔ t.cfg = s.cfg ∧ t.lock = s.lock ∧ t.keyStage = s.keyStage ∧
      t.chipSizeCache = s.chipSizeCache ∧ t.requests = s.requests ∧ t.resp = s.resp ∧ t.fault = s.fault ∧
      t.refused = s.refused := by
  simp [State.keptByErase]

/-- What the cleanup of page `p` leaves once its erase is completed: no status flag, PER clear, the latch empty, nothing marked as
aborted, and the page's index in PNB (R161, R210 step 4). -/
def State.pageCleaned (p : Nat) (s : State) : Prop :=
  s.flags = 0 ∧ s.per = false ∧ s.latch = none ∧ s.aborted = false ∧ s.pnb = BitVec.ofNat 6 p

section
variable {s : State} {p n : Nat}

theorem afterPage_kept : (s.afterPage p n).keptByErase = s.keptByErase := by
  simp [State.keptByErase, State.afterPage, State.startedPage]

theorem afterPage_cfg : (s.afterPage p n).cfg = s.cfg := fsmComplete_cfg _

theorem afterPage_op : (s.afterPage p n).op = .none := fsmComplete_op _

theorem afterPage_pg : (s.afterPage p n).pg = false := fsmComplete_pg _

theorem afterPage_cleaned : (s.afterPage p n).pageCleaned p := ⟨rfl, rfl, rfl, rfl, fsmComplete_pnb _⟩

section
variable (hp : p ≤ 63)
include hp

/-- The completion step of a page that ERASE started: its bytes are erased, unless the page is protected (R156, R160). -/
theorem fsmComplete_startedPage :
    fsmComplete ((s.startedPage p).afterDraws n) = finishOp (.erase (BitVec.ofNat 6 p))
      (if p ∈ s.cfg.wrpPages then (s.startedPage p).afterDraws n
        else ((s.startedPage p).afterDraws n).putBytes (p * s.cfg.page) (List.replicate s.cfg.page s.cfg.erasedByte)) := by
  have hindex : (BitVec.ofNat 6 p).toNat = p := Nat.mod_eq_of_lt (by omega)
  refine congrArg (finishOp (.erase (BitVec.ofNat 6 p))) ?_
  by_cases hprotected : p ∈ s.cfg.wrpPages
  · rw [if_pos hprotected, completeErase_of_protected]
    rwa [hindex]
  · rw [if_neg hprotected, completeErase_of_not_aborted (by rwa [hindex]) rfl, hindex]
    rfl

theorem afterPage_array :
    (s.afterPage p n).array =
      if p ∈ s.cfg.wrpPages then s.array
      else (s.putBytes (p * s.cfg.page) (List.replicate s.cfg.page s.cfg.erasedByte)).array := by
  simp only [State.afterPage, fsmComplete_startedPage hp]
  split <;> rfl

/-- The flags of the completion step take the one draw after those of its boundaries. -/
theorem afterPage_drawAt (k : Nat) : (s.afterPage p n).drawAt k = s.drawAt (n + 1 + k) := by
  have hdraws : ((s.afterDraws n).afterDraws 1).drawAt k = s.drawAt (n + 1 + k) := by
    rw [afterDraws_afterDraws, drawAt_afterDraws]
  rw [← hdraws, State.afterPage, fsmComplete_startedPage hp]
  split <;> rfl

theorem afterPage_memoryOk (hmem : s.memoryOk = true) (hin : (p + 1) * s.cfg.page ≤ s.cfg.arraySize) :
    (s.afterPage p n).memoryOk = true := by
  rw [Nat.succ_mul] at hin
  have hput := putBytes_memoryOk s (p * s.cfg.page) (List.replicate s.cfg.page s.cfg.erasedByte) hmem
    (by rwa [List.length_replicate])
  simp only [State.memoryOk, afterPage_cfg, afterPage_array hp] at hmem hput ⊢
  split
  · exact hmem
  · exact hput

/-- After a page its bytes are erased, unless it is protected, and every other byte is as before. -/
theorem afterPage_byteAt (hmem : s.memoryOk = true) (x : Nat) :
    (s.afterPage p n).byteAt x =
      if (p * s.cfg.page ≤ x ∧ x < p * s.cfg.page + s.cfg.page) ∧ p ∉ s.cfg.wrpPages then s.cfg.erasedByte
      else s.byteAt x := by
  have hput := byteAt_putBytes s (p * s.cfg.page) (List.replicate s.cfg.page s.cfg.erasedByte) x hmem
  rw [List.length_replicate] at hput
  simp only [State.byteAt, afterPage_cfg, afterPage_array hp] at hput ⊢
  by_cases hprotected : p ∈ s.cfg.wrpPages
  · simp [hprotected]
  · simp only [hprotected, if_false, not_false_eq_true, and_true]
    refine hput.trans (if_ctx_congr Iff.rfl (fun hx => ?_) fun _ => rfl)
    rw [List.getD_replicate _ (by omega)]

end

end

/-! ### An unlocked block -/

/-- After `j` pages of an ERASE that began page `p` in `s`: nothing is in flight, their bytes are erased where no page is protected,
and every other byte is as it was (R74, R156, R160, R210). `es₀` and `es` are the two `HISTORY`s. -/
structure PagesErased (s : State) (p : Nat) (waits : Nat → Nat) (es₀ : List Event) (j : Nat) (es : List Event) (t : State) :
    Prop where
  kept : t.keptByErase = s.keptByErase
  op : t.op = .none
  pg : t.pg = false
  memory : t.memoryOk = true
  draws : ∀ k, t.drawAt k = s.drawAt (unitDraw waits j + k)
  bytes : ∀ x, t.byteAt x =
    if p * s.cfg.page ≤ x ∧ x < p * s.cfg.page + j * s.cfg.page ∧ x / s.cfg.page ∉ s.cfg.wrpPages then s.cfg.erasedByte
    else s.byteAt x
  busyReads : busyReadCount es + 2 * j = busyReadCount es₀ + unitDraw waits j
  start : j = 0 → es = es₀ ∧ t = s
  last : 0 < j → t.pageCleaned (p + j - 1) ∧ es.getLast? = some (registerEvent true crOffset t.crWord)

/-- The premises of an ERASE of `m` pages from page `p` on, where its first page begins: an unlocked block with nothing in flight and
PG clear, pages of six bits inside the array, and each completion step within the budget (R210, D29). -/
structure ErasePremises (s : State) (p m : Nat) (waits : Nat → Nat) : Prop where
  admissible : s.cfg.Admissible
  memory : s.memoryOk = true
  live : s.live = true
  unlocked : s.lock = false
  op : s.op = .none
  pg : s.pg = false
  sixBits : ∀ i < m, p + i ≤ 63
  inArray : ∀ i < m, (p + i + 1) * s.cfg.page ≤ s.cfg.arraySize
  inTime : ∀ i < m, waits i < s.cfg.eraseTimeout.toNat ∧ s.completesAfter (unitDraw waits i) (waits i) = true

section
variable {s t : State} {p m j : Nat} {waits : Nat → Nat} {es₀ es : List Event}

theorem pagesErased_zero (hs : ErasePremises s p m waits) : PagesErased s p waits es 0 es s where
  kept := rfl
  op := hs.op
  pg := hs.pg
  memory := hs.memory
  draws k := by rw [unitDraw, Nat.zero_add]
  bytes x := by rw [if_neg (by omega)]
  busyReads := rfl
  start _ := ⟨rfl, rfl⟩
  last h := absurd h (lt_irrefl 0)

theorem PagesErased.cfg (h : PagesErased s p waits es₀ j es t) : t.cfg = s.cfg := by
  obtain ⟨hcfg, -⟩ := keptByErase_eq_iff.mp h.kept
  exact hcfg

theorem PagesErased.lock (h : PagesErased s p waits es₀ j es t) : t.lock = s.lock := by
  obtain ⟨-, hlock, -⟩ := keptByErase_eq_iff.mp h.kept
  exact hlock

theorem PagesErased.live (h : PagesErased s p waits es₀ j es t) : t.live = s.live := by
  obtain ⟨-, -, -, -, -, -, hfault, hrefused⟩ := keptByErase_eq_iff.mp h.kept
  exact live_congr hfault hrefused

/-- The bytes of one more page. -/
theorem erasedBytes_succ {c : Config} (hc : c.Admissible) {v w : Byte} (x : Nat) :
    (if ((p + j) * c.page ≤ x ∧ x < (p + j) * c.page + c.page) ∧ p + j ∉ c.wrpPages then v
      else if p * c.page ≤ x ∧ x < p * c.page + j * c.page ∧ x / c.page ∉ c.wrpPages then v else w) =
      if p * c.page ≤ x ∧ x < p * c.page + (j + 1) * c.page ∧ x / c.page ∉ c.wrpPages then v else w := by
  have hpos := page_pos hc
  by_cases hx : (p + j) * c.page ≤ x ∧ x < (p + j) * c.page + c.page
  · have hpage : x / c.page = p + j := Nat.div_eq_of_lt_le hx.1 (by rw [Nat.succ_mul]; exact hx.2)
    rw [Nat.add_mul] at hx
    rw [hpage, Nat.succ_mul]
    by_cases hprotected : p + j ∈ c.wrpPages
    · simp only [hprotected, not_true_eq_false, and_false, if_false]
    · rw [if_pos ⟨by rwa [Nat.add_mul], hprotected⟩, if_pos ⟨by omega, by omega, hprotected⟩]
  · have hsame : (p * c.page ≤ x ∧ x < p * c.page + (j + 1) * c.page ∧ x / c.page ∉ c.wrpPages) ↔
        (p * c.page ≤ x ∧ x < p * c.page + j * c.page ∧ x / c.page ∉ c.wrpPages) := by
      rw [Nat.add_mul] at hx
      rw [Nat.succ_mul]
      constructor
      · rintro ⟨h₁, h₂, h₃⟩
        exact ⟨h₁, by omega, h₃⟩
      · rintro ⟨h₁, h₂, h₃⟩
        exact ⟨h₁, by omega, h₃⟩
    simp only [hx, hsame, false_and, if_false]

/-- The next page is erased. -/
theorem PagesErased.succ {es' : List Event} (h : PagesErased s p waits es₀ j es t) (hs : ErasePremises s p m waits) (hj : j < m)
    (hreads : busyReadCount es' = busyReadCount es + waits j)
    (hlast : es'.getLast? = some (registerEvent true crOffset (t.afterPage (p + j) (waits j + 1)).crWord)) :
    PagesErased s p waits es₀ (j + 1) es' (t.afterPage (p + j) (waits j + 1)) where
  kept := afterPage_kept.trans h.kept
  op := afterPage_op
  pg := afterPage_pg
  memory := afterPage_memoryOk (hs.sixBits j hj) h.memory (h.cfg ▸ hs.inArray j hj)
  draws k := by
    rw [afterPage_drawAt (hs.sixBits j hj), h.draws, unitDraw]
    congr 1
    omega
  bytes x := by
    rw [afterPage_byteAt (hs.sixBits j hj) h.memory, h.cfg, h.bytes]
    exact erasedBytes_succ hs.admissible x
  busyReads := by
    have hbefore := h.busyReads
    rw [unitDraw]
    omega
  start hzero := absurd hzero (Nat.succ_ne_zero j)
  last _ := ⟨afterPage_cleaned, hlast⟩

/-- Page after page an unlocked block is erased (R210). -/
theorem pageLoop_of_unlocked {a b : Word} (hs : ErasePremises s (a.toNat / s.cfg.page) m waits) :
    PageLoop s.cfg a b m (PagesErased s (a.toNat / s.cfg.page) waits es₀) where
  live h := h.live.trans hs.live
  op h := h.op
  cfg h := h.cfg
  page {j pos g es t} hj h := by
    obtain ⟨hw, hcompletes⟩ := hs.inTime j hj
    have hdraws : t.completesAfter 0 (waits j) = true := by
      rw [completesAfter_congr h.draws]
      exact hcompletes
    obtain ⟨pos', g', es', x, hplace, hr, hreads, hlast, hreach, hend⟩ := reaches_end_of_page (a := a) (b := b) (pos := pos)
      (g := g) (es := es) (h.live.trans hs.live) (h.lock.trans hs.unlocked) h.op h.pg (hs.sixBits j hj)
      (h.cfg ▸ hs.inArray j hj) (h.cfg ▸ hw) hdraws
    exact ⟨pos', g', es', x, _, hplace, hr, h.succ hs hj hreads hlast, hreach.mono (by omega), hend⟩

end

/-! ### A locked block -/

/-- After `j` pages of an ERASE of a locked block that began in `s`, only the status flags have changed; every page ended with a CR write
that was ignored (R135, R212). -/
structure PagesSkipped (s : State) (j : Nat) (es : List Event) (t : State) : Prop where
  same : ∃ f, t = { s with flags := f }
  last : 0 < j → es.getLast? = some (registerEvent true crOffset (s.crWord &&& ~~~ crPer))

section
variable {s : State} {es : List Event}

theorem pagesSkipped_zero : PagesSkipped s 0 es s := ⟨⟨s.flags, rfl⟩, fun h => absurd h (lt_irrefl 0)⟩

/-- Page after page a locked block is left as it is (R212). -/
theorem pageLoop_of_locked {a b : Word} {m : Nat} (hlive : s.live = true) (hlock : s.lock = true) (hop : s.op = .none)
    (hbudget : s.cfg.eraseTimeout ≠ 0) (hsix : ∀ i < m, a.toNat / s.cfg.page + i ≤ 63) :
    PageLoop s.cfg a b m (PagesSkipped s) where
  live h := by
    obtain ⟨f, rfl⟩ := h.same
    exact hlive
  op h := by
    obtain ⟨f, rfl⟩ := h.same
    exact hop
  cfg h := by
    obtain ⟨f, rfl⟩ := h.same
    rfl
  page {j pos g es t} hj h := by
    obtain ⟨f, rfl⟩ := h.same
    obtain ⟨pos', g', es', x, hplace, hr, hlast, hreach, hend⟩ := reaches_end_of_locked_page (s := { s with flags := f }) (a := a)
      (b := b) (pos := pos) (g := g) (es := es) hlive hlock hop (hsix j hj) hbudget
    have hbound : 1 ≤ s.cfg.eraseTimeout.toNat := Nat.pos_of_ne_zero fun hzero => hbudget (BitVec.eq_of_toNat_eq hzero)
    exact ⟨pos', g', es', x, _, hplace, hr, ⟨⟨0, rfl⟩, fun _ => hlast⟩, hreach.mono (by omega), hend⟩

end

end Sys2Proof.Machine
end

section
/-! PROOFS. ERASE of unprotected pages (43_erase.md R210). -/

namespace Sys2Proof.Machine

/-- The premises of an ERASE of an unlocked block, as they stand after its busy check. -/
theorem erasePremises_discovered {s : State} {p n m : Nat} {waits : Nat → Nat} (hinv : StateInv s) (hquiet : Quiet s)
    (hlock : s.lock = false) (hpg : s.pg = false) (hin : p * s.cfg.page + n * s.cfg.page ≤ s.cfg.arraySize) (hm : m ≤ n)
    (hfit : p + m ≤ 64)
    (hinTime : ∀ i < m, waits i < s.cfg.eraseTimeout.toNat ∧ s.completesAfter (unitDraw waits i) (waits i) = true) :
    ErasePremises s.discovered p m waits := by
  obtain ⟨hadmissible, hmem, -⟩ := stateInv_iff.mp hinv
  obtain ⟨⟨hlive, -⟩, hop⟩ := hquiet
  obtain ⟨cache, es, hdiscovered⟩ := exists_discovered_eq s
  rw [hdiscovered]
  refine ⟨hadmissible, hmem, hlive, hlock, hop, hpg, fun i hi => by omega, fun i hi => ?_, hinTime⟩
  rw [← Nat.add_mul] at hin
  exact (Nat.mul_le_mul_right _ (by omega)).trans hin

/-- Settles O47: an unlocked block is erased page after page, and the last page's cleanup leaves the control fields. -/
theorem eraseErasesRequestedPages : Obligations.EraseErasesRequestedPages := by
  unfold Obligations.EraseErasesRequestedPages
  intro s a b waits hinv hquiet hlock hpg hb hin hfit hinTime
  obtain ⟨-, -, -, -, -, hcache⟩ := stateInv_iff.mp hinv
  rw [capacity_eq_arraySize hcache] at hin
  have hs := erasePremises_discovered hinv hquiet hlock hpg hin le_rfl hfit hinTime
  obtain ⟨cache, history, hdiscovered⟩ := exists_discovered_eq s
  have hcfg := discovered_cfg s
  have hloop := pageLoop_of_unlocked (b := b) (es₀ := s.discovered.history ++ [registerEvent false srOffset s.srWord])
    (hcfg.symm ▸ hs)
  rw [hcfg] at hloop
  obtain ⟨es, t, ht, hexec⟩ := hloop.exec_ok hinv hquiet hin (pagesErased_zero hs) hb rfl
  have hcount : 0 < b.toNat := Nat.pos_of_ne_zero fun hzero => hb (BitVec.eq_of_toNat_eq hzero)
  obtain ⟨⟨hflags, hper, hlatch, haborted, hpnb⟩, -⟩ := ht.last hcount
  obtain ⟨htcfg, htlock, hstage, hcached, hrequests, -⟩ := keptByErase_eq_iff.mp ht.kept
  have hbytes := ht.bytes
  rw [hcfg] at hbytes htcfg
  rw [hdiscovered] at hbytes htlock hstage hrequests
  have hlast : t.pnb.toNat = a.toNat / s.cfg.page + b.toNat - 1 := by
    rw [hpnb, BitVec.toNat_ofNat]
    exact Nat.mod_eq_of_lt (by omega)
  exact ⟨_, hexec, rfl, rfl, hbytes, ht.op, haborted, hflags, hper, ht.pg, htlock.trans hlock, hstage, hlatch, hlast, htcfg,
    hcached, hrequests⟩

end Sys2Proof.Machine
end

section
/-! PROOFS. ERASE that reaches above page 63 (43_erase.md R213). -/

namespace Sys2Proof.Machine

/-- With no page to go through, ERASE is at its first page as it began. -/
theorem pageLoop_of_no_page {s : State} {a b : Word} {es₀ : List Event} (hlive : s.live = true) (hop : s.op = .none) :
    PageLoop s.cfg a b 0 fun _ es t => es = es₀ ∧ t = s where
  live h := h.2 ▸ hlive
  op h := h.2 ▸ hop
  cfg h := h.2 ▸ rfl
  page hj := absurd hj (Nat.not_lt_zero _)

/-- The CR image of an unlocked block at rest that has erased page 63 (R102). -/
theorem crWord_of_last_page {s : State} (hlock : s.lock = false) (hop : s.op = .none) (hpg : s.pg = false)
    (hper : s.per = false) (hpnb : s.pnb = 63) : s.crWord = 0x000001F8 := by
  have hstrt : s.strt = false := by simp [State.strt, hop, Op.isErase]
  rw [State.crWord, hlock, hstrt, hpg, hper, hpnb]
  decide

/-- Settles O59: ERASE is refused at the first page above 63, with what holds there after the pages before it. -/
theorem widePageIndexStops : Obligations.WidePageIndexStops := by
  unfold Obligations.WidePageIndexStops
  intro s a b hinv hquiet hb hwide hin
  obtain ⟨-, -, -, -, -, hcache⟩ := stateInv_iff.mp hinv
  rw [capacity_eq_arraySize hcache] at hin
  obtain ⟨⟨hlive, -⟩, hop⟩ := id hquiet
  have hcount : 0 < b.toNat := Nat.pos_of_ne_zero fun hzero => hb (BitVec.eq_of_toNat_eq hzero)
  have hcfg := discovered_cfg s
  obtain ⟨cache, history, hdiscovered⟩ := exists_discovered_eq s
  have hlive' : s.discovered.live = true := hdiscovered ▸ hlive
  have hop' : s.discovered.op = .none := hdiscovered ▸ hop
  have hcross (h : a.toNat / s.cfg.page ≤ 63) : a.toNat / s.cfg.page + (64 - a.toNat / s.cfg.page) = 64 := by omega
  refine ⟨fun hfirst => ?_, fun waits hfirst hlock hpg hinTime => ?_, fun hfirst hlock hbudget => ?_⟩
  · have hloop := pageLoop_of_no_page (a := a) (b := b)
      (es₀ := s.discovered.history ++ [registerEvent false srOffset s.srWord]) hlive' hop'
    rw [hcfg] at hloop
    obtain ⟨es, t, r, ⟨rfl, rfl⟩, hexec⟩ := hloop.exec_refused hinv hquiet hin ⟨rfl, rfl⟩ (by omega) hcount
    rw [hdiscovered] at hexec ⊢
    exact ⟨_, hexec, rfl, nofun, rfl, rfl, rfl⟩
  · have hs := erasePremises_discovered hinv hquiet hlock hpg hin (m := 64 - a.toNat / s.cfg.page) (by omega) (hcross hfirst).le
      hinTime
    have hloop := pageLoop_of_unlocked (b := b) (es₀ := s.discovered.history ++ [registerEvent false srOffset s.srWord])
      (hcfg.symm ▸ hs)
    rw [hcfg] at hloop
    obtain ⟨es, t, r, ht, hexec⟩ := hloop.exec_refused hinv hquiet hin (pagesErased_zero hs) (by omega) (by omega)
    obtain ⟨⟨-, hper, -, -, hpnb⟩, hlast⟩ := ht.last (by omega)
    obtain ⟨-, htlock, -, -, -, hresp, -⟩ := keptByErase_eq_iff.mp ht.kept
    have hbytes := ht.bytes
    rw [hcfg, ← Nat.add_mul, hcross hfirst] at hbytes
    rw [hcross hfirst] at hpnb
    rw [hdiscovered] at hbytes htlock hresp
    rw [crWord_of_last_page (htlock.trans hlock) ht.op ht.pg hper hpnb] at hlast
    exact ⟨_, hexec, rfl, nofun, hresp, ht.op, hper, hpnb, hbytes, hlast⟩
  · have hloop := pageLoop_of_locked (s := s.discovered) (a := a) (b := b) (m := 64 - a.toNat / s.cfg.page) hlive'
      (hdiscovered ▸ hlock) hop' (hcfg ▸ hbudget) (fun i hi => by rw [hcfg]; omega)
    rw [hcfg] at hloop
    obtain ⟨es, t, r, ⟨⟨f, rfl⟩, hlast⟩, hexec⟩ := hloop.exec_refused hinv hquiet hin pagesSkipped_zero (by omega) (by omega)
    have hlast := hlast (by omega)
    rw [hdiscovered] at hexec hlast
    exact ⟨_, hexec, rfl, nofun, rfl, hop, rfl, hlast⟩

end Sys2Proof.Machine
end

section
/-! SUPPORT. ERASE with a budget of 0, which polls nothing, whatever the flash FSM does until the response (43_erase.md R211, R212,
41_sequencer.md R177). -/

namespace Sys2Proof.Machine

/-! ### The SR reads of a `HISTORY` -/

/-- How many SR reads there are. -/
def statusReadCount (es : List Event) : Nat := (es.filter Event.isStatusRead).length

@[simp] theorem isStatusRead_write (o : BitVec 26) (v : Word) : (registerEvent true o v).isStatusRead = false :=
  decide_eq_false (registerDescriptor_write_ne o)

@[simp] theorem isStatusRead_crRead (v : Word) : (registerEvent false crOffset v).isStatusRead = false := rfl

@[simp] theorem isStatusRead_srRead (v : Word) : (registerEvent false srOffset v).isStatusRead = true := rfl

theorem statusReadCount_srRead (es : List Event) (v : Word) :
    statusReadCount (es ++ [registerEvent false srOffset v]) = statusReadCount es + 1 := by
  simp [statusReadCount, List.filter_cons]

/-- The cleanup reads no SR. -/
theorem cleanupEvents_no_statusRead (s : State) : s.cleanupEvents.filter Event.isStatusRead = [] := by
  simp [State.cleanupEvents, turnEvents_no_statusRead]

section
variable {s : State} {a b : Word} {p pos : Nat} {phase : Phase} {g : Regs} {es : List Event}

/-- A CR write with PER 0 and LOCK as it is starts nothing: it takes the fields while unlocked, and is ignored while locked (R135,
R136). -/
theorem exists_busCrWrite_of_no_per {v : Word} (hper : v.getLsbD 1 = false) (hv : v.getLsbD 31 = s.lock) :
    ∃ t : State, busCrWrite v (s.erasing a b pos phase g es) =
        (t.erasing a b pos phase g es).logRegister true crOffset (some v) ∧
      t.live = s.live ∧ (s.lock = false → t.per = false) ∧ (s.lock = true → t = s) := by
  cases hlock : s.lock with
  | true => exact ⟨s, busCrWrite_of_locked hlock, rfl, nofun, fun _ => rfl⟩
  | false =>
    refine ⟨crFields v s, ?_, rfl, fun _ => hper, nofun⟩
    rw [busCrWrite_of_no_start (s := s.erasing a b pos phase g es) hlock (.inr (.inr (.inr hper))),
      setLockIf_of_clear (hv.trans hlock)]
    rfl

/-- With a budget of 0 the page that was started, or not, comes straight to its cleanup (R177). -/
theorem reaches_clearAfter_of_no_budget (hlive : s.live = true) (hop : s.op = .none) (hmode : s.lock = true ∨ s.pg = false)
    (hbudget : s.cfg.eraseTimeout = 0) (hp : p ≤ 63) (hin : (p + 1) * s.cfg.page ≤ s.cfg.arraySize) :
    ∃ (u : State) (g' : Regs) (es' : List Event), u.live = true ∧ u.cfg = s.cfg ∧ u.lock = s.lock ∧
      (s.lock = true → u.op = .none ∧ u.array = s.array) ∧ statusReadCount es' = statusReadCount es ∧
      Reaches 3 (s.erasing a b pos (.clearBefore p) g es) (u.erasing a b (pos + 3) .clearAfter g' es') := by
  cases hlock : s.lock with
  | true =>
    let g' : Regs := { g with p := BitVec.ofNat 32 p, c := s.crWord }
    let es₁ := es ++ [registerEvent true srOffset srClear] ++ [registerEvent false crOffset s.crWord]
    have hclear := reaches_modeWrite_of_page (a := a) (b := b) (pos := pos) (g := g) (es := es) hlive hop hp
    have hmode := boundary_modeWrite_of_locked (s := { s with flags := 0 }) (a := a) (b := b) (pos := pos + 2) (g := g')
      (es := es₁) hlive hop hlock
    rw [erasePollPhase, if_pos hbudget] at hmode
    refine ⟨{ s with flags := 0 }, g', es₁ ++ [registerEvent true crOffset (eraseCr g'.c g'.p)], hlive, rfl, hlock,
      fun _ => ⟨hop, rfl⟩, ?_, hclear.trans (reaches_of_turn hmode hlive)⟩
    simp [statusReadCount, es₁]
  | false =>
    have hpg : s.pg = false := hmode.resolve_left (by simp [hlock])
    obtain ⟨g', -, hreach⟩ := reaches_poll_of_page (a := a) (b := b) (pos := pos) (g := g) (es := es) hlive hlock hop hpg hp hin
    rw [erasePollPhase, if_pos hbudget] at hreach
    refine ⟨s.startedPage p, g', es ++ s.startEvents p, hlive, rfl, hlock, nofun, ?_, hreach⟩
    simp [statusReadCount, State.startEvents]

/-- The cleanup of a page with a budget of 0 ends ERASE with Timeout, whether or not the erase is completed meanwhile (R155, R177,
R210). -/
theorem reaches_timeout_of_no_budget (hlive : s.live = true) (hbudget : s.cfg.eraseTimeout = 0) :
    ∃ (x t : State) (es' : List Event), t.live = true ∧ (s.lock = false → t.per = false) ∧
      (s.lock = true → s.op = .none → t.op = .none ∧ t.array = s.array) ∧ statusReadCount es' = statusReadCount es ∧
      Reaches 2 (s.erasing a b pos .clearAfter g es) x ∧
      sequencerTurn (fsmTurn x) = State.raiseTimeout { t with history := es' } := by
  have hexpired : pollExpired s.cfg (eraseRun a b pos .clearAfter g) = true :=
    Bool.or_eq_true_iff.mpr (.inl (decide_eq_true hbudget))
  obtain ⟨x, hreach, hend⟩ := reaches_cleanupWrite_of_page (es := es) hlive hexpired
  have hlock : s.atCleanupRead.lock = s.lock := by simp [State.atCleanupRead, State.statusCleared]
  have hlock' : s.atCleanupWrite.lock = s.lock := (fsmTurn_lock _).trans hlock
  have hlive' : s.atCleanupWrite.live = true := by
    simp only [State.atCleanupWrite, State.atCleanupRead, fsmTurn_live]
    exact (fsmTurn_live s).trans hlive
  let v := s.atCleanupRead.crWord &&& ~~~ crPer
  have hper : v.getLsbD 1 = false := by simp [v, crPer]
  have hv : v.getLsbD 31 = s.atCleanupWrite.lock := by simp [v, crPer, hlock, hlock']
  obtain ⟨t, hwrite, htlive, htper, htsame⟩ := exists_busCrWrite_of_no_per (a := a) (b := b) (pos := pos + 2)
    (phase := .cleanupWrite) (g := s.cleanupRegs true g) (es := es ++ s.cleanupEvents) hper hv
  rw [turn_erase_cleanupWrite rfl hwrite (htlive.trans hlive'), nextUnit_of_expired (g := s.cleanupRegs true g) rfl _ rfl] at hend
  refine ⟨x, t, es ++ s.cleanupEvents ++ [registerEvent true crOffset v], htlive.trans hlive',
    fun h => htper (hlock'.trans h), fun h hop => ?_, ?_, hreach, hend⟩
  · rw [htsame (hlock'.trans h), atCleanupWrite_of_no_op hop]
    exact ⟨hop, rfl⟩
  · simp [statusReadCount, cleanupEvents_no_statusRead]

end

/-- Discovery reads no SR (R174). -/
theorem discovered_statusReadCount (s : State) : statusReadCount s.discovered.history = statusReadCount s.history := by
  unfold State.discovered
  split
  · simp [statusReadCount, Event.isStatusRead]
  · rfl

theorem discovered_busyReadCount (s : State) : busyReadCount s.discovered.history = busyReadCount s.history := by
  unfold State.discovered
  split
  · simp [busyReadCount, Event.isBusyRead]
  · rfl

end Sys2Proof.Machine
end

section
/-! PROOFS. ERASE whose poll expires (43_erase.md R211). -/

namespace Sys2Proof.Machine

/-- The busy check of a block with nothing in flight is no busy read. -/
theorem busyReadCount_busyCheck {s : State} (hop : s.op = .none) (es : List Event) :
    busyReadCount (es ++ [registerEvent false srOffset s.srWord]) = busyReadCount es := by
  simp [busyReadCount, isBusyRead_of_no_op hop]

theorem two_mul_le_unitDraw (waits : Nat → Nat) (j : Nat) : 2 * j ≤ unitDraw waits j := by
  induction j with
  | zero => exact Nat.zero_le _
  | succ j ih =>
    rw [unitDraw]
    omega

/-- The poll of a page that expires reads the SR busy as often as the budget says. -/
theorem timeoutEvents_busyReadCount (s : State) (p : Nat) : busyReadCount (s.timeoutEvents p) = s.cfg.eraseTimeout.toNat := by
  simp [busyReadCount, State.timeoutEvents, State.startEvents]

/-- ERASE whose page `j` is not completed in time answers Timeout, the pages before it erased and page `j` aborted (R211). -/
theorem exec_erase_of_late_page {s : State} {a b : Word} {j : Nat} {waits : Nat → Nat} (hinv : StateInv s) (hquiet : Quiet s)
    (hlock : s.lock = false) (hpg : s.pg = false) (hj : j < b.toNat)
    (hin : a.toNat / s.cfg.page * s.cfg.page + b.toNat * s.cfg.page ≤ s.cfg.arraySize) (hpage : a.toNat / s.cfg.page + j ≤ 63)
    (hinTime : ∀ i < j, waits i < s.cfg.eraseTimeout.toNat ∧ s.completesAfter (unitDraw waits i) (waits i) = true)
    (hlate : s.waitsFor (unitDraw waits j) (s.cfg.eraseTimeout.toNat + 3) = true) :
    ∃ es t, PagesErased s.discovered (a.toNat / s.cfg.page) waits
        (s.discovered.history ++ [registerEvent false srOffset s.srWord]) j es t ∧
      exec (.erase a b) s = .next (State.raiseTimeout
        { t.abortedPage (a.toNat / s.cfg.page + j) (s.cfg.eraseTimeout.toNat + 3) with
          history := es ++ t.timeoutEvents (a.toNat / s.cfg.page + j) }) := by
  have hs := erasePremises_discovered hinv hquiet hlock hpg hin hj.le (by omega) hinTime
  have hcfg := discovered_cfg s
  have hloop := pageLoop_of_unlocked (b := b) (es₀ := s.discovered.history ++ [registerEvent false srOffset s.srWord])
    (hcfg.symm ▸ hs)
  rw [hcfg] at hloop
  obtain ⟨pos, g, es, t, ht, hreach⟩ := hloop.reaches_page_of_accept hinv hquiet hin (pagesErased_zero hs) le_rfl hj
  have htcfg : t.cfg = s.cfg := ht.cfg.trans hcfg
  have hlive : t.live = true := ht.live.trans hs.live
  have hwhole : (a.toNat / s.cfg.page + j + 1) * t.cfg.page ≤ t.cfg.arraySize := by
    rw [htcfg]
    exact pageFloor_add_le hin hj
  have hwaits : t.waitsFor 0 (s.cfg.eraseTimeout.toNat + 3) = true := by
    obtain ⟨cache, history, hdiscovered⟩ := exists_discovered_eq s
    have hdraws := ht.draws
    rw [hdiscovered] at hdraws
    rw [waitsFor_congr (s := s) hdraws]
    exact hlate
  obtain ⟨x, hpageReach, hend⟩ := reaches_timeout_of_page (a := a) (b := b) (pos := pos) (g := g) (es := es) hlive
    (ht.lock.trans hs.unlocked) ht.op ht.pg hpage hwhole (by rw [htcfg]; exact hwaits)
  rw [htcfg] at hpageReach hend
  have hbound : (s.cfg.eraseTimeout.toNat + 6) * j + 2 + (s.cfg.eraseTimeout.toNat + 5) ≤ commandBound s.cfg (.erase a b) := by
    have hunits := Nat.mul_le_mul_left (s.cfg.eraseTimeout.toNat + 6) (Nat.succ_le_of_lt hj)
    rw [Nat.mul_succ] at hunits
    simp only [commandBound]
    omega
  exact ⟨es, t, ht, (hreach.trans hpageReach).exec_eq rfl hquiet hbound hend rfl hlive⟩

/-- With a budget of 0 ERASE answers Timeout in its first page, with no SR read after the busy check (R177, R212). -/
theorem exec_erase_of_no_budget {s : State} {a b : Word} (hinv : StateInv s) (hquiet : Quiet s)
    (hmode : s.lock = true ∨ s.pg = false) (hbudget : s.cfg.eraseTimeout = 0) (hb : b ≠ 0)
    (hin : a.toNat / s.cfg.page * s.cfg.page + b.toNat * s.cfg.page ≤ s.cfg.arraySize) (hpage : a.toNat / s.cfg.page ≤ 63) :
    ∃ (es : List Event) (t : State), exec (.erase a b) s = .next (State.raiseTimeout { t with history := es }) ∧
      statusReadCount es = statusReadCount s.history + 1 ∧ (s.lock = false → t.per = false) ∧
      (s.lock = true → t.array = s.array ∧ t.op = .none) := by
  have hcount : 0 < b.toNat := Nat.pos_of_ne_zero fun hzero => hb (BitVec.eq_of_toNat_eq hzero)
  obtain ⟨⟨hlive, -⟩, hop⟩ := id hquiet
  obtain ⟨pos, g, -, hfirst⟩ := reaches_firstPage hinv hquiet hb hin
  obtain ⟨cache, history, hdiscovered⟩ := exists_discovered_eq s
  have hhistory := discovered_statusReadCount s
  rw [hdiscovered] at hfirst hhistory
  obtain ⟨u, g', es, hulive, hucfg, hulock, hulocked, hreads, hstart⟩ := reaches_clearAfter_of_no_budget
    (s := { s with chipSizeCache := cache, history := history }) (a := a) (b := b) (pos := pos) (g := g)
    (es := history ++ [registerEvent false srOffset s.srWord]) hlive hop hmode hbudget hpage (pageFloor_add_le hin hcount)
  obtain ⟨x, t, es', htlive, htper, htlocked, hreads', hclean, hend⟩ := reaches_timeout_of_no_budget (a := a) (b := b)
    (pos := pos + 3) (g := g') (es := es) hulive (hucfg ▸ hbudget)
  have hbound : 2 + 3 + 2 ≤ commandBound s.cfg (.erase a b) := by
    have hunits := Nat.le_mul_of_pos_right (s.cfg.eraseTimeout.toNat + 6) hcount
    simp only [commandBound]
    omega
  refine ⟨es', t, ((hfirst.trans hstart).trans hclean).exec_eq rfl hquiet hbound hend rfl htlive, ?_,
    fun h => htper (hulock.trans h), fun h => ?_⟩
  · exact (hreads'.trans hreads).trans ((statusReadCount_srRead _ _).trans (congrArg (· + 1) hhistory))
  · obtain ⟨huop, huarray⟩ := hulocked h
    obtain ⟨htop, htarray⟩ := htlocked (hulock.trans h) huop
    exact ⟨htarray.trans huarray, htop⟩

/-- Settles O50: the late page ends ERASE after the pages before it; with a budget of 0 the first page does. -/
theorem eraseTimesOut : Obligations.EraseTimesOut := by
  unfold Obligations.EraseTimesOut
  refine ⟨fun s a b j waits hinv hquiet hlock hpg hj hin hpage hinTime hlate => ?_,
    fun s a b hinv hquiet hmode hbudget hb hin hpage => ?_⟩
  · obtain ⟨-, -, -, -, -, hcache⟩ := stateInv_iff.mp hinv
    rw [capacity_eq_arraySize hcache] at hin
    obtain ⟨es, t, ht, hexec⟩ := exec_erase_of_late_page hinv hquiet hlock hpg hj hin hpage hinTime hlate
    obtain ⟨htcfg, htlock, hstage, -⟩ := keptByErase_eq_iff.mp ht.kept
    have hbytes := ht.bytes
    rw [discovered_cfg] at hbytes htcfg
    have hreads : busyReadCount (es ++ t.timeoutEvents (a.toNat / s.cfg.page + j)) =
        busyReadCount s.history + (unitDraw waits j - 2 * j) + s.cfg.eraseTimeout.toNat := by
      have hbefore := ht.busyReads
      have hdraws := two_mul_le_unitDraw waits j
      rw [busyReadCount_busyCheck hquiet.right, discovered_busyReadCount] at hbefore
      rw [busyReadCount_append, timeoutEvents_busyReadCount, htcfg]
      omega
    have hfirst (hzero : j = 0) : es ++ t.timeoutEvents (a.toNat / s.cfg.page + j) =
        s.discovered.history ++ [registerEvent false srOffset s.srWord] ++ s.timeoutEvents (a.toNat / s.cfg.page) := by
      obtain ⟨hes, hstart⟩ := ht.start hzero
      rw [hes, hstart, hzero]
      obtain ⟨cache, history, hdiscovered⟩ := exists_discovered_eq s
      rw [hdiscovered]
      rfl
    obtain ⟨cache, history, hdiscovered⟩ := exists_discovered_eq s
    rw [hdiscovered] at hbytes htlock hstage
    refine ⟨_, hexec, rfl, rfl, hbytes, rfl, rfl, rfl, rfl, ?_, htlock.trans hlock, hstage, hreads, fun hzero => ?_⟩
    · exact Nat.mod_eq_of_lt (by omega)
    · refine (hfirst hzero).trans ?_
      simp only [State.timeoutEvents, State.startEvents, List.append_assoc]
      rfl
  · obtain ⟨-, -, -, -, -, hcache⟩ := stateInv_iff.mp hinv
    rw [capacity_eq_arraySize hcache] at hin
    obtain ⟨es, t, hexec, hreads, hper, hlocked⟩ := exec_erase_of_no_budget hinv hquiet hmode hbudget hb hin hpage
    exact ⟨_, hexec, rfl, rfl, hreads, hper, hlocked⟩

end Sys2Proof.Machine
end

section
/-! SUPPORT. WRITE of a locked block with PG clear: its array writes are unarmed, and its CR writes are ignored (44_write.md R222,
40_register_bus.md R135, R152). -/

namespace Sys2Proof.Machine

section
variable {s : State} {a : Word} {d : List Byte} {u o pos : Nat} {phase : Phase} {g : Regs} {es : List Event} {w : Word}

theorem doubleWords_pos (hd : d ≠ []) : 0 < doubleWords d.length := by
  have hlength := List.length_pos_iff.mpr hd
  have hcovers := doubleWords_covers d.length
  omega

/-! ### The transactions -/

/-- An array write inside the array with PG clear (R152). -/
theorem busArrayWrite_of_unarmed (hpg : s.pg = false) (haligned : o % 4 = 0) (hin : o + 4 ≤ s.cfg.arraySize) :
    busArrayWrite o w s = unarmedWrite o w (s.logArrayWrite o w) :=
  arrayWriteEffect_of_unarmed (s := s.logArrayWrite o w) haligned hin hpg

/-- The block after an unarmed array write that is ignored: the status flags take a draw (R152). -/
def State.afterUnarmed (s : State) : State := { s.afterDraws 1 with flags := flagsOfWord (s.drawAt 0) }

/-- Under `Ignore` an array write of WRITE with PG clear stores nothing (R152). -/
theorem busArrayWrite_writing_of_ignore (hpg : s.pg = false) (haligned : o % 4 = 0) (hin : o + 4 ≤ s.cfg.arraySize)
    (hignore : s.cfg.unarmedWritePolicy = .ignore) :
    busArrayWrite o w (s.writing a d pos phase g es) = s.afterUnarmed.writing a d pos phase g (es ++ [arrayWriteEvent o w]) := by
  rw [busArrayWrite_of_unarmed (s := s.writing a d pos phase g es) hpg haligned hin,
    unarmedWrite_of_ignore (s := (s.writing a d pos phase g es).logArrayWrite o w) hignore]
  rfl

/-! ### The steps -/

theorem turn_modeWrite_of_locked (hlive : s.live = true) (hlock : s.lock = true) :
    sequencerTurn (s.writing a d pos .modeWrite g es) =
      s.writing a d (pos + 1) .lowWord g (es ++ [registerEvent true crOffset (g.c ||| crPg)]) := by
  have hwrite := busCrWrite_of_locked (s := s.writing a d pos .modeWrite g es) (v := g.c ||| crPg) hlock
  exact (congrArg (State.andThen · _) hwrite).trans (andThen_of_live (by exact hlive))

section
variable (hlive : s.live = true) (hpg : s.pg = false) (hignore : s.cfg.unarmedWritePolicy = .ignore)
  (ho : doubleWordOffset g = o) (haligned : o % 8 = 0) (hin : o + 8 ≤ s.cfg.arraySize)
include hlive hpg hignore ho haligned hin

theorem turn_lowWord_of_ignore :
    sequencerTurn (s.writing a d pos .lowWord g es) =
      s.afterUnarmed.writing a d (pos + 1) .highWord g (es ++ [arrayWriteEvent o g.lo]) := by
  subst ho
  have hwrite := busArrayWrite_writing_of_ignore (a := a) (d := d) (pos := pos) (phase := .lowWord) (g := g) (es := es) (w := g.lo)
    hpg (o := doubleWordOffset g) (by omega) (by omega) hignore
  exact (congrArg (State.andThen · _) hwrite).trans (andThen_of_live hlive)

theorem turn_highWord_of_ignore (hbudget : s.cfg.progTimeout ≠ 0) :
    sequencerTurn (s.writing a d pos .highWord g es) =
      s.afterUnarmed.writing a d (pos + 1) (.poll 1) g (es ++ [arrayWriteEvent (o + 4) g.hi]) := by
  subst ho
  have hwrite := busArrayWrite_writing_of_ignore (a := a) (d := d) (pos := pos) (phase := .highWord) (g := g) (es := es) (w := g.hi)
    hpg (o := doubleWordOffset g + 4) (by omega) (by omega) hignore
  exact (congrArg (State.andThen · _) hwrite).trans ((andThen_of_live (by exact hlive)).trans (if_neg hbudget))

end

/-- Under `BusFault` the low word stops the machine (R152). -/
theorem turn_lowWord_of_busFault (hpg : s.pg = false) (hpolicy : s.cfg.unarmedWritePolicy = .busFault)
    (ho : doubleWordOffset g = o) (haligned : o % 8 = 0) (hin : o + 8 ≤ s.cfg.arraySize) :
    sequencerTurn (s.writing a d pos .lowWord g es) =
      ((s.writing a d pos .lowWord g es).logArrayWrite o g.lo).recordFault o g.lo := by
  subst ho
  have hwrite := busArrayWrite_of_unarmed (s := s.writing a d pos .lowWord g es) (o := doubleWordOffset g) (w := g.lo) hpg
    (by omega) (Nat.le_trans (by omega) hin)
  rw [unarmedWrite_of_busFault (s := (s.writing a d pos .lowWord g es).logArrayWrite (doubleWordOffset g) g.lo) hpolicy] at hwrite
  exact (congrArg (State.andThen · _) hwrite).trans (andThen_of_not_live (recordFault_live _ _ _))

theorem turn_cleanupWrite_of_locked (hlive : s.live = true) (hlock : s.lock = true) :
    sequencerTurn (s.writing a d pos .cleanupWrite g es) =
      nextUnit (writeRun a d pos .cleanupWrite g)
        (s.writing a d pos .cleanupWrite g (es ++ [registerEvent true crOffset (g.c &&& ~~~ crPg)])) := by
  have hwrite := busCrWrite_of_locked (s := s.writing a d pos .cleanupWrite g es) (v := g.c &&& ~~~ crPg) hlock
  exact (congrArg (State.andThen · _) hwrite).trans (andThen_of_live (by exact hlive))

/-! ### A double-word -/

/-- What WRITE of a locked block changes: the status flags, and draws are taken (R222). -/
def State.IgnoredIn (s t : State) : Prop := ∃ f n, t = { s.afterDraws n with flags := f }

theorem ignoredIn_refl (s : State) : s.IgnoredIn s := ⟨s.flags, 0, by rw [afterDraws_zero]⟩

theorem State.IgnoredIn.trans {t u : State} (h : s.IgnoredIn t) (h' : t.IgnoredIn u) : s.IgnoredIn u := by
  obtain ⟨f, n, rfl⟩ := h
  obtain ⟨f', n', rfl⟩ := h'
  exact ⟨f', n + n', by rw [← afterDraws_afterDraws]; rfl⟩

theorem State.IgnoredIn.cfg {t : State} (h : s.IgnoredIn t) : t.cfg = s.cfg := by
  obtain ⟨f, n, rfl⟩ := h
  rfl

theorem ignoredIn_afterUnarmed : s.IgnoredIn s.afterUnarmed := ⟨_, 1, rfl⟩

/-- WRITE of a locked block comes to the low word of a double-word (R220 steps 1 and 2). -/
theorem reaches_lowWord_of_locked (hlive : s.live = true) (hlock : s.lock = true) (hop : s.op = .none) (hu : u < 2 ^ 32) :
    ∃ t g' es', s.IgnoredIn t ∧ g'.a = g.a ∧ g'.u.toNat = u ∧
      Reaches 3 (s.writing a d pos (.clearBefore u) g es) (t.writing a d (pos + 3) .lowWord g' es') := by
  let clear : State := { s.afterDraws (padCount d u) with flags := 0 }
  let g' : Regs := { assembleWords d u g s with c := clear.crWord }
  have hunit : g'.u.toNat = u := by simpa [g', assembleWords] using hu
  have hclear := reaches_of_step (pos := pos) (es := es) hop (turn_clearBefore (a := a) (d := d) (u := u) (g := g)) hlive
  have hmodeRead := hclear.trans (reaches_of_step (s := clear) hop turn_modeRead hlive)
  have hmodeWrite := hmodeRead.trans (reaches_of_step (s := clear) (t := clear) hop (turn_modeWrite_of_locked hlive hlock) hlive)
  exact ⟨clear, g', _, ⟨0, padCount d u, rfl⟩, rfl, hunit, hmodeWrite⟩

/-- The premises of a WRITE to a locked block under `Ignore`, where its first double-word begins (R222). -/
structure IgnoredWrite (s : State) (a : Word) (d : List Byte) : Prop where
  live : s.live = true
  locked : s.lock = true
  op : s.op = .none
  pg : s.pg = false
  ignore : s.cfg.unarmedWritePolicy = .ignore
  budget : s.cfg.progTimeout ≠ 0
  aligned : a.toNat % 8 = 0
  inArray : a.toNat + d.length ≤ s.cfg.arraySize

theorem IgnoredWrite.mono {t : State} (h : IgnoredWrite s a d) (ht : s.IgnoredIn t) : IgnoredWrite t a d := by
  obtain ⟨f, n, rfl⟩ := ht
  exact ⟨h.live, h.locked, h.op, h.pg, h.ignore, h.budget, h.aligned, h.inArray⟩

/-- The array writes of a double-word are ignored, and the first poll read finds the block idle (R152, R222). -/
theorem reaches_clearAfter_of_ignore (hlive : s.live = true) (hop : s.op = .none) (hpg : s.pg = false)
    (hignore : s.cfg.unarmedWritePolicy = .ignore) (hbudget : s.cfg.progTimeout ≠ 0) (ho : doubleWordOffset g = o)
    (haligned : o % 8 = 0) (hin : o + 8 ≤ s.cfg.arraySize) :
    ∃ pos' t g' es', s.IgnoredIn t ∧ g'.a = g.a ∧ g'.u = g.u ∧ g'.s[16] = false ∧
      Reaches 3 (s.writing a d pos .lowWord g es) (t.writing a d pos' .clearAfter g' es') := by
  let low := s.afterUnarmed
  let high := low.afterUnarmed
  have hidle : high.bsy = false := decide_eq_false (not_not.mpr hop)
  have hlow := reaches_of_step (t := low) hop
    (turn_lowWord_of_ignore (a := a) (d := d) (pos := pos) (es := es) hlive hpg hignore ho haligned hin) hlive
  have hhigh := hlow.trans (reaches_of_step (s := low) (t := high) hop
    (turn_highWord_of_ignore hlive hpg hignore ho haligned hin hbudget) hlive)
  have hpoll := hhigh.trans (reaches_of_step (s := high) hop (turn_poll_of_idle hidle) hlive)
  exact ⟨pos + 3, high, { g with k := BitVec.ofNat 32 1, s := high.srWord }, _, ignoredIn_afterUnarmed.trans ignoredIn_afterUnarmed,
    rfl, rfl, (srWord_bsy high).trans hidle, hpoll⟩

/-- The cleanup of a locked block changes the flags alone (R135, R220 step 5). -/
theorem reaches_cleanupWrite_of_locked (hlive : s.live = true) (hlock : s.lock = true) (hop : s.op = .none)
    (hpoll : pollExpired s.cfg (writeRun a d pos .clearAfter g) = false) :
    ∃ g' es' x t, s.IgnoredIn t ∧ g'.a = g.a ∧ g'.u = g.u ∧ g'.r = false ∧ Reaches 2 (s.writing a d pos .clearAfter g es) x ∧
      sequencerTurn (fsmTurn x) =
        nextUnit (writeRun a d (pos + 2) .cleanupWrite g') (t.writing a d (pos + 2) .cleanupWrite g' es') := by
  let clear : State := { s with flags := 0 }
  let g' : Regs := { g with r := false, c := clear.crWord }
  let es' := es ++ [registerEvent true srOffset srClear] ++ [registerEvent false crOffset clear.crWord]
  have hclear := reaches_of_step (es := es) hop (turn_clearAfter hpoll) hlive
  have hread := hclear.trans (reaches_of_step (s := clear) hop turn_cleanupRead hlive)
  have hwrite := turn_cleanupWrite_of_locked (s := clear) (a := a) (d := d) (pos := pos + 2) (g := g') (es := es') hlive hlock
  exact ⟨g', _, _, clear, ⟨0, 0, by rw [afterDraws_zero]⟩, rfl, rfl, rfl, hread, (boundary_writing (s := clear) hop).trans hwrite⟩

/-- A double-word of a WRITE to a locked block is not programmed: its first poll read finds the block idle (R222). -/
theorem IgnoredWrite.reaches_nextUnit (h : IgnoredWrite s a d) (hg : g.a = a) (hu : u < doubleWords d.length) :
    ∃ pos' g' es' x t, s.IgnoredIn t ∧ g'.a = a ∧ g'.u.toNat = u ∧ g'.r = false ∧
      Reaches 8 (s.writing a d pos (.clearBefore u) g es) x ∧
      sequencerTurn (fsmTurn x) = nextUnit (writeRun a d pos' .cleanupWrite g') (t.writing a d pos' .cleanupWrite g' es') := by
  have haligned := h.aligned
  have hrange := doubleWords_in_array haligned h.inArray
  have hsize := arraySize_le (c := s.cfg)
  obtain ⟨t₁, g₁, es₁, hs₁, ha₁, hu₁, hstart⟩ := reaches_lowWord_of_locked (a := a) (d := d) (u := u) (pos := pos) (g := g)
    (es := es) h.live h.locked h.op (by omega)
  have h₁ := h.mono hs₁
  have ho : doubleWordOffset g₁ = a.toNat + 8 * u := by rw [doubleWordOffset, ha₁, hg, hu₁]
  obtain ⟨pos₂, t₂, g₂, es₂, hs₂, ha₂, hu₂, hidle, hpoll⟩ := reaches_clearAfter_of_ignore (a := a) (d := d) (pos := pos + 3)
    (es := es₁) h₁.live h₁.op h₁.pg h₁.ignore h₁.budget ho (by omega) (by rw [hs₁.cfg]; omega)
  have h₂ := h₁.mono hs₂
  obtain ⟨g₃, es₃, x, t₃, hs₃, ha₃, hu₃, hr, hclean, hend⟩ := reaches_cleanupWrite_of_locked (a := a) (d := d) (pos := pos₂)
    (es := es₂) h₂.live h₂.locked h₂.op (pollExpired_of_done h₂.budget hidle)
  refine ⟨pos₂ + 2, g₃, es₃, x, t₃, (hs₁.trans hs₂).trans hs₃, ?_, ?_, hr, (hstart.trans hpoll).trans hclean, hend⟩
  · rw [ha₃, ha₂, ha₁, hg]
  · rw [hu₃, hu₂, hu₁]

/-- WRITE of a locked block comes to each of its double-words. -/
theorem IgnoredWrite.reaches_unit (h : IgnoredWrite s a d) (hg : g.a = a) (hu : u < doubleWords d.length) :
    ∃ pos' g' es' t, s.IgnoredIn t ∧ g'.a = a ∧
      Reaches (9 * u) (s.writing a d pos (.clearBefore 0) g es) (t.writing a d pos' (.clearBefore u) g' es') := by
  induction u with
  | zero => exact ⟨pos, g, es, s, ignoredIn_refl s, hg, .refl _⟩
  | succ u ih =>
    obtain ⟨pos₁, g₁, es₁, t, ht, ha₁, hreach⟩ := ih (by omega)
    obtain ⟨pos₂, g₂, es₂, x, t', ht', ha₂, hu₂, hr, hunit, hend⟩ := (h.mono ht).reaches_nextUnit (u := u) (pos := pos₁)
      (es := es₁) ha₁ (by omega)
    rw [nextUnit_goesOn hr hu₂ hu] at hend
    exact ⟨pos₂ + 1, g₂, es₂, t', ht.trans ht', ha₂,
      (hreach.trans hunit).trans (reaches_of_turn hend ((h.mono ht).mono ht').live)⟩

/-- WRITE of a locked block goes through all its double-words and responds (R222). -/
theorem IgnoredWrite.reaches_response (h : IgnoredWrite s a d) (hg : g.a = a) (hd : d ≠ []) :
    ∃ x t, s.IgnoredIn t ∧ Reaches (9 * doubleWords d.length) (s.writing a d pos (.clearBefore 0) g es) x ∧
      ∃ es', sequencerTurn (fsmTurn x) =
        State.respond .ok (BitVec.ofNat 32 (8 * doubleWords d.length)) [] { t with history := es' } := by
  obtain ⟨n, hn⟩ := Nat.exists_eq_succ_of_ne_zero (doubleWords_pos hd).ne'
  obtain ⟨pos₁, g₁, es₁, t, ht, ha₁, hreach⟩ := h.reaches_unit (u := n) (pos := pos) (es := es) hg (by omega)
  obtain ⟨pos₂, g₂, es₂, x, t', ht', ha₂, hu₂, hr, hunit, hend⟩ := (h.mono ht).reaches_nextUnit (u := n) (pos := pos₁)
    (es := es₁) ha₁ (by omega)
  rw [nextUnit_ends hr hu₂ hn.symm] at hend
  exact ⟨x, t', ht.trans ht', (hreach.trans hunit).mono (by omega), es₂, hend⟩

end

end Sys2Proof.Machine
end

section
/-! PROOFS. ERASE and WRITE of a locked block (43_erase.md R212, 44_write.md R222). -/

namespace Sys2Proof.Machine

section
variable {s : State} {a : Word} {d : List Byte}

/-- WRITE of data in the array, on a quiet block, comes to its first double-word (R174, R179, R220). -/
theorem reaches_firstDoubleWord (hinv : StateInv s) (hquiet : Quiet s) (hd : d ≠ []) (haligned : a.toNat % 8 = 0)
    (hin : a.toNat + d.length ≤ s.cfg.arraySize) :
    ∃ pos g es, g.a = a ∧
      Reaches 2 (s.accept (.write a (some d))) (s.discovered.writing a d pos (.clearBefore 0) g es) := by
  obtain ⟨hadmissible, -, -, -, -, hcache⟩ := stateInv_iff.mp hinv
  obtain ⟨⟨hlive, -⟩, hop⟩ := hquiet
  have hlength : d.length ≠ 0 := (List.length_pos_iff.mpr hd).ne'
  have hchecked : writeChecks s.cfg s.discovered.chipSizeCache a (some d) = .busyCheck := by
    have hbase := flashBase_mod_eight hadmissible
    have haddress : ¬ arrayAddress s.cfg a.toNat % 8 ≠ 0 := by
      unfold arrayAddress
      omega
    simp only [writeChecks, if_neg haddress, discovered_chipSizeCache_toNat hcache, inRange_of_le hlength hin, if_true]
  obtain ⟨pos, hstart⟩ := reaches_busyCheck (c := .write a (some d)) hop hlive rfl hchecked
  obtain ⟨cache, es, hdiscovered⟩ := exists_discovered_eq s
  rw [hdiscovered] at hstart ⊢
  exact ⟨pos + 1, _, _, rfl, hstart.trans (reaches_of_turn
    (boundary_busyCheck (s := { s with chipSizeCache := cache, history := es }) hop hd) hlive)⟩

/-- WRITE of a locked block whose array writes are ignored answers OK with the padded length, and leaves the array as it is
(R222). -/
theorem exec_write_of_ignore (hinv : StateInv s) (hquiet : Quiet s) (hlock : s.lock = true) (hpg : s.pg = false)
    (hbudget : s.cfg.progTimeout ≠ 0) (hd : d ≠ []) (haligned : a.toNat % 8 = 0) (hin : a.toNat + d.length ≤ s.cfg.arraySize)
    (hignore : s.cfg.unarmedWritePolicy = .ignore) :
    ∃ t : State, exec (.write a (some d)) s = .next (t.respond .ok (BitVec.ofNat 32 (8 * doubleWords d.length)) []) ∧
      t.array = s.array := by
  obtain ⟨pos, g, es, hg, hstart⟩ := reaches_firstDoubleWord hinv hquiet hd haligned hin
  obtain ⟨⟨hlive, -⟩, hop⟩ := id hquiet
  obtain ⟨cache, history, hdiscovered⟩ := exists_discovered_eq s
  rw [hdiscovered] at hstart
  have hs : IgnoredWrite { s with chipSizeCache := cache, history := history } a d :=
    ⟨hlive, hlock, hop, hpg, hignore, hbudget, haligned, hin⟩
  obtain ⟨x, t, ⟨f, n, rfl⟩, hreach, es', hend⟩ := hs.reaches_response (pos := pos) (es := es) hg hd
  have hbound : 2 + 9 * doubleWords d.length ≤ commandBound s.cfg (.write a (some d)) := by
    have hsome : 1 ≤ s.cfg.progTimeout.toNat := Nat.pos_of_ne_zero fun hzero => hbudget (BitVec.eq_of_toNat_eq hzero)
    have hunits : 9 * doubleWords d.length ≤ (s.cfg.progTimeout.toNat + 8) * doubleWords d.length :=
      Nat.mul_le_mul_right _ (by omega)
    simp only [commandBound]
    omega
  exact ⟨_, (hstart.trans hreach).exec_eq rfl hquiet hbound hend rfl hlive, rfl⟩

/-- Under `BusFault` WRITE of a locked block stops at its first array write, the array as it is (R152, R222). -/
theorem exec_write_of_busFault (hinv : StateInv s) (hquiet : Quiet s) (hlock : s.lock = true) (hpg : s.pg = false)
    (hd : d ≠ []) (haligned : a.toNat % 8 = 0) (hin : a.toNat + d.length ≤ s.cfg.arraySize)
    (hpolicy : s.cfg.unarmedWritePolicy = .busFault) :
    ∃ w final, exec (.write a (some d)) s = .fault (.busFault a.toNat w final) ∧ final.fault = some ⟨a.toNat, w⟩ ∧
      final.seq ≠ .idle ∧ final.resp = s.resp ∧ final.array = s.array := by
  obtain ⟨pos, g, es, hg, hstart⟩ := reaches_firstDoubleWord hinv hquiet hd haligned hin
  obtain ⟨⟨hlive, -⟩, hop⟩ := id hquiet
  obtain ⟨cache, history, hdiscovered⟩ := exists_discovered_eq s
  rw [hdiscovered] at hstart
  obtain ⟨t, g', es', ⟨f, n, rfl⟩, ha, hu, hlow⟩ := reaches_lowWord_of_locked (u := 0) (a := a) (d := d) (pos := pos) (g := g)
    (es := es) (s := { s with chipSizeCache := cache, history := history }) hlive hlock hop (by omega)
  have hcovers := doubleWords_pos hd
  have hrange := doubleWords_in_array haligned hin
  have ho : doubleWordOffset g' = a.toNat := by rw [doubleWordOffset, ha, hg, hu, Nat.mul_zero, Nat.add_zero]
  let low : State := { { s with chipSizeCache := cache, history := history }.afterDraws n with flags := f }
  let r := low.writing a d (pos + 3) .lowWord g' es'
  let stopped := (r.logArrayWrite a.toNat g'.lo).recordFault a.toNat g'.lo
  have hend : sequencerTurn (fsmTurn r) = stopped :=
    (boundary_writing (s := low) hop).trans (turn_lowWord_of_busFault (s := low) hpg hpolicy ho (by omega) (hrange.trans' (by omega)))
  have hbound : 2 + 3 ≤ commandBound s.cfg (.write a (some d)) := by
    have hunits := Nat.le_mul_of_pos_right (s.cfg.progTimeout.toNat + 8) hcovers
    simp only [commandBound]
    omega
  exact ⟨g'.lo, stopped, ((hstart.trans hlow).exec_eq_outcome rfl hquiet hbound hend (recordFault_live _ _ _)).trans
    (outcome_of_fault (f := ⟨a.toNat, g'.lo⟩) rfl), rfl, nofun, rfl, rfl⟩

end

/-- Settles O53: a locked block ignores each page and each double-word, or faults at the first array write. -/
theorem lockedEraseAndWriteAnswerOk : Obligations.LockedEraseAndWriteAnswerOk := by
  unfold Obligations.LockedEraseAndWriteAnswerOk
  intro s hinv hquiet hlock
  obtain ⟨-, -, -, -, -, hcache⟩ := stateInv_iff.mp hinv
  obtain ⟨⟨hlive, -⟩, hop⟩ := id hquiet
  rw [capacity_eq_arraySize hcache]
  refine ⟨fun a b hbudget hb hin hsix => ?_, fun a d hpg hbudget hd haligned hin hignore => ?_,
    fun a d hpg hd haligned hin hpolicy => exec_write_of_busFault hinv hquiet hlock hpg hd haligned hin hpolicy⟩
  · have hcfg := discovered_cfg s
    obtain ⟨cache, history, hdiscovered⟩ := exists_discovered_eq s
    have hloop := pageLoop_of_locked (s := s.discovered) (a := a) (b := b) (m := b.toNat) (hdiscovered ▸ hlive)
      (hdiscovered ▸ hlock) (hdiscovered ▸ hop) (hcfg ▸ hbudget) (fun i hi => by rw [hcfg]; omega)
    rw [hcfg] at hloop
    obtain ⟨es, t, ⟨⟨f, rfl⟩, -⟩, hexec⟩ := hloop.exec_ok hinv hquiet hin pagesSkipped_zero hb rfl
    rw [hdiscovered] at hexec
    exact ⟨_, hexec, rfl, rfl⟩
  · obtain ⟨t, hexec, harray⟩ := exec_write_of_ignore hinv hquiet hlock hpg hbudget hd haligned hin hignore
    rw [eight_mul_doubleWords] at hexec
    exact ⟨_, hexec, rfl, harray⟩

end Sys2Proof.Machine
end

section
/-! SUPPORT. The steps of one double-word of WRITE with the SR reads they log, whatever the budget (44_write.md R220, R223,
41_sequencer.md R177, R178). -/

namespace Sys2Proof.Machine

/-! ### The SR reads of a `HISTORY` -/

/-- The SR reads, in order. -/
def statusReads (es : List Event) : List Event := es.filter Event.isStatusRead

@[simp] theorem isStatusRead_arrayWrite (o : Nat) (w : Word) : (arrayWriteEvent o w).isStatusRead = false := by
  refine decide_eq_false fun h => ?_
  have hwrites := congrArg descriptorWrites h
  rw [descriptorWrites_descriptor] at hwrites
  exact absurd hwrites (by decide)

/-- A busy read is an SR read. -/
theorem isStatusRead_of_isBusyRead {e : Event} (h : e.isBusyRead = true) : e.isStatusRead = true := by
  rw [of_decide_eq_true h]
  rfl

/-- `HISTORY`s with the same SR reads have as many busy reads. -/
theorem busyReadCount_congr {es es' : List Event} (h : statusReads es' = statusReads es) :
    busyReadCount es' = busyReadCount es := by
  have hcount (es : List Event) : busyReadCount es = busyReadCount (statusReads es) := by
    rw [busyReadCount, busyReadCount, statusReads, List.filter_filter]
    congr 2
    funext e
    cases hbusy : e.isBusyRead with
    | false => rfl
    | true => rw [isStatusRead_of_isBusyRead hbusy]; rfl
  rw [hcount, h, ← hcount]

/-! ### From the status clear to the poll -/

/-- The transaction after the high word: with a budget of 0 the poll reads nothing (R177). -/
def programPollPhase (c : Config) : Phase := if c.progTimeout = 0 then .clearAfter else .poll 1

/-- The registers that say where WRITE is: its offset and the current double-word. -/
def Regs.doubleWord (g : Regs) : Word × Word := (g.a, g.u)

section
variable {s t : State} {a : Word} {d : List Byte} {u k n o w pos : Nat} {phase : Phase} {g : Regs} {es es' : List Event}

theorem doubleWordOffset_of_doubleWord (h : g.doubleWord = (a, BitVec.ofNat 32 u)) (hu : u < 2 ^ 32) :
    doubleWordOffset g = a.toNat + 8 * u := by
  obtain ⟨ha, hgu⟩ := Prod.mk.inj h
  rw [doubleWordOffset, ha, hgu, BitVec.toNat_ofNat, Nat.mod_eq_of_lt hu]

/-- A boundary of WRITE: the flash FSM's turn, and then the step. -/
theorem boundary_writing_turn :
    sequencerTurn (fsmTurn (s.writing a d pos phase g es)) =
      sequencerTurn ((fsmTurn s).writing a d pos phase g (es ++ s.turnEvents)) := by
  rw [State.writing, fsmTurn_withTrace]
  rfl

/-- A double-word comes to its low word with PG set while unlocked, and PG as it was while locked (R135, R220 steps 1 and 2). -/
theorem reaches_lowWord (hlive : s.live = true) (hop : s.op = .none) :
    ∃ g' es', g'.doubleWord = (g.a, BitVec.ofNat 32 u) ∧ g'.lo = wordAt (s.doubleWordBytes d u) 0 ∧
      g'.hi = wordAt (s.doubleWordBytes d u) 4 ∧ statusReads es' = statusReads es ∧
      Reaches 3 (s.writing a d pos (.clearBefore u) g es)
        ({ s.afterDraws (padCount d u) with flags := 0, pg := !s.lock || s.pg }.writing a d (pos + 3) .lowWord g' es') := by
  let clear : State := { s.afterDraws (padCount d u) with flags := 0 }
  let g' : Regs := { assembleWords d u g s with c := clear.crWord }
  let es₁ := es ++ [registerEvent true srOffset srClear] ++ [registerEvent false crOffset clear.crWord]
  have hclear := reaches_of_step (pos := pos) (es := es) hop (turn_clearBefore (a := a) (d := d) (u := u) (g := g)) hlive
  have hmodeRead := hclear.trans (reaches_of_step (s := clear) hop turn_modeRead hlive)
  have hmodeWrite : sequencerTurn (clear.writing a d (pos + 2) .modeWrite g' es₁) =
      { clear with pg := !s.lock || s.pg }.writing a d (pos + 3) .lowWord g'
        (es₁ ++ [registerEvent true crOffset (clear.crWord ||| crPg)]) := by
    cases hlock : s.lock with
    | true => exact turn_modeWrite_of_locked (s := clear) hlive hlock
    | false => exact turn_modeWrite (s := clear) hlive hlock hop rfl
  exact ⟨g', _, rfl, rfl, rfl, by simp [statusReads, es₁], hmodeRead.trans (reaches_of_step (s := clear) hop hmodeWrite hlive)⟩

/-- After the high word the poll follows, if there is one (R177, R220 step 4). -/
theorem turn_highWord_of_busArrayWrite
    (hwrite : busArrayWrite (doubleWordOffset g + 4) g.hi (s.writing a d pos .highWord g es) =
      t.writing a d pos .highWord g es') (hlive : t.live = true) :
    sequencerTurn (s.writing a d pos .highWord g es) = t.writing a d (pos + 1) (programPollPhase t.cfg) g es' := by
  have hpoll : enterPoll (writeRun a d pos .highWord g) (t.writing a d pos .highWord g es') =
      t.writing a d (pos + 1) (programPollPhase t.cfg) g es' := by
    have hbudget : pollBudget (t.writing a d pos .highWord g es').cfg (writeRun a d pos .highWord g).cmd =
      t.cfg.progTimeout := rfl
    rw [enterPoll, hbudget, programPollPhase]
    split <;> rfl
  exact (congrArg (State.andThen · _) hwrite).trans ((andThen_of_live (by exact hlive)).trans hpoll)

/-- On an unlocked block a double-word comes to its poll with its program in flight (R151, R220 steps 1 to 3). -/
theorem reaches_programPoll (hlive : s.live = true) (hlock : s.lock = false) (hop : s.op = .none) (hu : u < 2 ^ 32)
    (ho : g.a.toNat + 8 * u = o) (haligned : o % 8 = 0) (hin : o + 8 ≤ s.cfg.arraySize) :
    ∃ g' es', g'.doubleWord = (g.a, BitVec.ofNat 32 u) ∧ statusReads es' = statusReads es ∧
      Reaches 5 (s.writing a d pos (.clearBefore u) g es)
        (((s.armed o (s.doubleWordBytes d u)).afterDraws (padCount d u)).writing a d (pos + 5) (programPollPhase s.cfg)
          g' es') := by
  obtain ⟨g', es', hplace, hlo, hhi, hreads, hreach⟩ := reaches_lowWord (a := a) (d := d) (u := u) (pos := pos) (g := g)
    (es := es) hlive hop
  have hoffset : doubleWordOffset g' = o := (doubleWordOffset_of_doubleWord hplace hu).trans ho
  rw [hlock] at hreach
  let low : State := { s.afterDraws (padCount d u) with flags := 0, pg := true }
  let high : State := { low with latch := some ⟨o, g'.lo⟩ }
  let armed := (s.armed o (s.doubleWordBytes d u)).afterDraws (padCount d u)
  let es₁ := es' ++ [arrayWriteEvent o g'.lo]
  have hlow := reaches_of_step (s := low) (t := high) hop
    (turn_lowWord (s := low) (a := a) (d := d) (pos := pos + 3) (es := es') hlive hlock hop rfl hoffset haligned hin) hlive
  have hwrite : busArrayWrite (doubleWordOffset g' + 4) g'.hi (high.writing a d (pos + 4) .highWord g' es₁) =
      armed.writing a d (pos + 4) .highWord g' (es₁ ++ [arrayWriteEvent (o + 4) g'.hi]) := by
    rw [hoffset, busArrayWrite_highWord (s := high.writing a d (pos + 4) .highWord g' es₁) g'.lo g'.hi hlock hop rfl rfl rfl
      haligned hin, hlo, hhi]
    rfl
  exact ⟨g', _, hplace, by simpa [statusReads, es₁] using hreads,
    (hreach.trans hlow).trans (reaches_of_step (s := high) hop (turn_highWord_of_busArrayWrite hwrite hlive) hlive)⟩

/-- On a locked block under `Ignore` a double-word comes to its poll with nothing in flight (R152, R222). -/
theorem reaches_programPoll_of_ignore (hlive : s.live = true) (hlock : s.lock = true) (hop : s.op = .none) (hpg : s.pg = false)
    (hignore : s.cfg.unarmedWritePolicy = .ignore) (hu : u < 2 ^ 32) (ho : g.a.toNat + 8 * u = o) (haligned : o % 8 = 0)
    (hin : o + 8 ≤ s.cfg.arraySize) :
    ∃ t g' es', s.IgnoredIn t ∧ statusReads es' = statusReads es ∧
      Reaches 5 (s.writing a d pos (.clearBefore u) g es) (t.writing a d (pos + 5) (programPollPhase s.cfg) g' es') := by
  obtain ⟨g', es', hplace, -, -, hreads, hreach⟩ := reaches_lowWord (a := a) (d := d) (u := u) (pos := pos) (g := g)
    (es := es) hlive hop
  have hoffset : doubleWordOffset g' = o := (doubleWordOffset_of_doubleWord hplace hu).trans ho
  rw [hlock, Bool.not_true, Bool.false_or] at hreach
  let low : State := { s.afterDraws (padCount d u) with flags := 0 }
  have hsame : s.IgnoredIn low := ⟨0, padCount d u, rfl⟩
  let es₁ := es' ++ [arrayWriteEvent o g'.lo]
  have hlow := reaches_of_step (s := low) (t := low.afterUnarmed) hop
    (turn_lowWord_of_ignore (s := low) (a := a) (d := d) (pos := pos + 3) (es := es') hlive hpg hignore hoffset haligned hin) hlive
  have hwrite := busArrayWrite_writing_of_ignore (s := low.afterUnarmed) (a := a) (d := d) (pos := pos + 4) (phase := .highWord)
    (g := g') (es := es₁) (o := doubleWordOffset g' + 4) (w := g'.hi) hpg (by omega) (by exact hoffset ▸ hin) hignore
  exact ⟨low.afterUnarmed.afterUnarmed, g', _, (hsame.trans ignoredIn_afterUnarmed).trans ignoredIn_afterUnarmed,
    by simpa [statusReads, es₁] using hreads, (hreach.trans hlow).trans
      (reaches_of_step (s := low.afterUnarmed) hop (turn_highWord_of_busArrayWrite hwrite hlive) hlive)⟩

/-! ### The poll -/

/-- A poll read that uses up the budget is the last (R177). -/
theorem turn_poll_of_spent (hk : s.cfg.progTimeout.toNat ≤ k) :
    sequencerTurn (s.writing a d pos (.poll k) g es) =
      s.writing a d (pos + 1) .clearAfter { g with k := BitVec.ofNat 32 k, s := s.srWord }
        (es ++ [registerEvent false srOffset s.srWord]) :=
  if_neg fun ⟨_, hmore⟩ => Nat.not_lt.mpr hk hmore

/-- While the completion step does not come, a step of WRITE follows one more draw (R155). -/
theorem boundary_writing_of_wait (hlive : s.live = true) (hop : s.op ≠ .none) (hwait : drawBit (s.drawAt n) = false) :
    sequencerTurn (fsmTurn ((s.afterDraws n).writing a d pos phase g es)) =
      sequencerTurn ((s.afterDraws (n + 1)).writing a d pos phase g es) := by
  have hdraw : drawBit ((s.afterDraws n).drawAt 0) = false := by rwa [drawAt_afterDraws]
  rw [boundary_writing_turn, turnEvents_of_wait hdraw, List.append_nil, fsmTurn_of_wait (s := s.afterDraws n) hlive hop hdraw,
    afterDraws_afterDraws]

section
variable (hlive : s.live = true) (hop : s.op ≠ .none) (hflags : s.flags = 0)
include hlive hop hflags

/-- While the completion step does not come, the poll reads BSY = 1 again and again (R155, R177). -/
theorem reaches_programBusyReads (hk : k + n ≤ s.cfg.progTimeout.toNat) (hwaits : s.waitsFor 0 n = true) :
    ∃ g', g'.doubleWord = g.doubleWord ∧
      Reaches n (s.writing a d pos (.poll k) g es)
        ((s.afterDraws n).writing a d (pos + n) (.poll (k + n)) g' (es ++ List.replicate n busyRead)) := by
  induction n with
  | zero =>
    rw [afterDraws_zero, List.replicate_zero, List.append_nil]
    exact ⟨g, rfl, .refl _⟩
  | succ n ih =>
    obtain ⟨hfirst, hwait⟩ : s.waitsFor 0 n = true ∧ drawBit (s.drawAt n) = false := by
      simpa [waitsFor_add] using hwaits
    obtain ⟨g', hplace, hreach⟩ := ih (by omega) hfirst
    have hturn := boundary_writing_of_wait (a := a) (d := d) (pos := pos + n) (phase := .poll (k + n)) (g := g')
      (es := es ++ List.replicate n busyRead) hlive hop hwait
    rw [turn_poll_of_busy (s := s.afterDraws (n + 1)) (decide_eq_true hop) (by rw [State.afterDraws_cfg]; omega),
      statusRead_of_busy (s := s.afterDraws (n + 1)) hop hflags, List.append_assoc, ← List.replicate_succ'] at hturn
    exact ⟨{ g' with k := BitVec.ofNat 32 (k + n), s := s.srWord }, hplace, hreach.trans (reaches_of_turn hturn hlive)⟩

/-- A poll that the completion step meets within the budget, after `w` busy reads, is done (R155, R177). -/
theorem reaches_programDone (hw : w < s.cfg.progTimeout.toNat) (hdraws : s.completesAfter 0 w = true) :
    ∃ pos' g' es', g'.doubleWord = g.doubleWord ∧ g'.s[16] = false ∧ busyReadCount es' = busyReadCount es + w ∧
      Reaches (w + 1) (s.writing a d pos (programPollPhase s.cfg) g es)
        ((fsmComplete (s.afterDraws (w + 1))).writing a d pos' .clearAfter g' es') := by
  obtain ⟨hwaits, hdone⟩ := (completesAfter_iff 0 w).mp hdraws
  obtain ⟨g', hplace, hreach⟩ := reaches_programBusyReads (a := a) (d := d) (pos := pos) (g := g) (es := es) (k := 1) hlive hop
    hflags (by omega) hwaits
  have hbudget : s.cfg.progTimeout ≠ 0 := fun hzero => by simp [hzero] at hw
  let done := fsmComplete (s.afterDraws (w + 1))
  have hdraw : drawBit ((s.afterDraws w).drawAt 0) = true := by rwa [drawAt_afterDraws, Nat.add_comm]
  have hidle : done.bsy = false := by simp [State.bsy, done, fsmComplete_op]
  have hturn := boundary_writing_turn (s := s.afterDraws w) (a := a) (d := d) (pos := pos + w) (phase := .poll (1 + w)) (g := g')
    (es := es ++ List.replicate w busyRead)
  rw [turnEvents_of_completion (s := s.afterDraws w) hlive hop hdraw,
    fsmTurn_of_completion (s := s.afterDraws w) hlive hop hdraw, afterDraws_afterDraws, turn_poll_of_idle (s := done) hidle]
    at hturn
  rw [programPollPhase, if_neg hbudget]
  refine ⟨_, { g' with k := BitVec.ofNat 32 (1 + w), s := done.srWord }, _, hplace, (srWord_bsy done).trans hidle, ?_,
    hreach.trans (reaches_of_turn hturn ((fsmComplete_live _).trans hlive))⟩
  simp [busyReadCount, isBusyRead_of_no_op (s := done) (fsmComplete_op _)]

/-- A poll that the completion step does not meet within the budget expires after the budget's SR reads (R177). -/
theorem reaches_programExpired (hwaits : s.waitsFor 0 s.cfg.progTimeout.toNat = true) :
    ∃ pos' g' es', pollExpired s.cfg (writeRun a d pos' .clearAfter g') = true ∧
      busyReadCount es' = busyReadCount es + s.cfg.progTimeout.toNat ∧
      Reaches s.cfg.progTimeout.toNat (s.writing a d pos (programPollPhase s.cfg) g es)
        ((s.afterDraws s.cfg.progTimeout.toNat).writing a d pos' .clearAfter g' es') := by
  cases hbudget : s.cfg.progTimeout.toNat with
  | zero =>
    have hzero : s.cfg.progTimeout = 0 := BitVec.eq_of_toNat_eq hbudget
    rw [afterDraws_zero, programPollPhase, if_pos hzero]
    exact ⟨pos, g, es, Bool.or_eq_true_iff.mpr (.inl (decide_eq_true hzero)), rfl, .refl _⟩
  | succ n =>
    have hsome : s.cfg.progTimeout ≠ 0 := fun h => by simp [h] at hbudget
    obtain ⟨hfirst, hwait⟩ : s.waitsFor 0 n = true ∧ drawBit (s.drawAt n) = false := by
      simpa [hbudget, waitsFor_add] using hwaits
    obtain ⟨g', -, hreach⟩ := reaches_programBusyReads (a := a) (d := d) (pos := pos) (g := g) (es := es) (k := 1) hlive hop
      hflags (by omega) hfirst
    have hturn := boundary_writing_of_wait (a := a) (d := d) (pos := pos + n) (phase := .poll (1 + n)) (g := g')
      (es := es ++ List.replicate n busyRead) hlive hop hwait
    rw [turn_poll_of_spent (by rw [State.afterDraws_cfg]; omega), statusRead_of_busy (s := s.afterDraws (n + 1)) hop hflags,
      List.append_assoc, ← List.replicate_succ'] at hturn
    rw [programPollPhase, if_neg hsome]
    have hbusy : s.srWord[16] = true := (srWord_bsy s).trans (decide_eq_true hop)
    exact ⟨pos + n + 1, { g' with k := BitVec.ofNat 32 (1 + n), s := s.srWord }, _, Bool.or_eq_true_iff.mpr (.inr hbusy),
      by simp [busyReadCount], hreach.trans (reaches_of_turn hturn hlive)⟩

end

/-! ### The cleanup -/

/-- The status clear after the poll takes the poll's result (R177, R178). -/
theorem turn_clearAfter_of_poll {expired : Bool} (hpoll : pollExpired s.cfg (writeRun a d pos .clearAfter g) = expired) :
    sequencerTurn (s.writing a d pos .clearAfter g es) =
      { s with flags := 0 }.writing a d (pos + 1) .cleanupRead { g with r := expired }
        (es ++ [registerEvent true srOffset srClear]) := by
  subst hpoll
  change stepClearAfter (writeRun a d pos .clearAfter g) (s.withTrace _ es) = _
  rw [stepClearAfter, busSrWrite, clearFlags_srClear]
  rfl

/-- After its poll a double-word comes to the CR write of its cleanup, whatever the flash FSM does meanwhile (R155, R220 step 5). -/
theorem reaches_cleanupWrite_of_doubleWord (hlive : s.live = true) {expired : Bool}
    (hpoll : pollExpired s.cfg (writeRun a d pos .clearAfter g) = expired) :
    ∃ x, Reaches 2 (s.writing a d pos .clearAfter g es) x ∧
      sequencerTurn (fsmTurn x) = sequencerTurn
        (s.atCleanupWrite.writing a d (pos + 2) .cleanupWrite (s.cleanupRegs expired g) (es ++ s.cleanupEvents)) := by
  have hlive₁ : s.statusCleared.live = true := (fsmTurn_live s).trans hlive
  have hlive₂ : s.atCleanupRead.live = true := (fsmTurn_live _).trans hlive₁
  have hclear := boundary_writing_turn (s := s) (a := a) (d := d) (pos := pos) (phase := .clearAfter) (g := g) (es := es)
  rw [turn_clearAfter_of_poll (s := fsmTurn s) (expired := expired) (by rwa [fsmTurn_cfg])] at hclear
  have hread := boundary_writing_turn (s := s.statusCleared) (a := a) (d := d) (pos := pos + 1) (phase := .cleanupRead)
    (g := { g with r := expired }) (es := es ++ s.turnEvents ++ [registerEvent true srOffset srClear])
  rw [turn_cleanupRead] at hread
  refine ⟨_, (reaches_of_turn hclear hlive₁).trans (reaches_of_turn hread hlive₂), boundary_writing_turn.trans ?_⟩
  simp only [State.cleanupEvents, List.append_assoc]
  rfl

/-- The CR write of the cleanup, and then the next double-word or the response (R220 steps 5 and 6). -/
theorem turn_cleanupWrite_of_busCrWrite {v : Word} (hv : g.c &&& ~~~ crPg = v)
    (hwrite : busCrWrite v (s.writing a d pos .cleanupWrite g es) =
      (t.writing a d pos .cleanupWrite g es).logRegister true crOffset (some v)) (hlive : t.live = true) :
    sequencerTurn (s.writing a d pos .cleanupWrite g es) =
      nextUnit (writeRun a d pos .cleanupWrite g)
        (t.writing a d pos .cleanupWrite g (es ++ [registerEvent true crOffset v])) := by
  subst hv
  exact (congrArg (State.andThen · _) hwrite).trans (andThen_of_live hlive)

end

end Sys2Proof.Machine
end

section
/-! SUPPORT. What a whole double-word of WRITE does: a program that completes in time, a poll that expires, and a budget of 0
(44_write.md R220, R222, R223). -/

namespace Sys2Proof.Machine

section
variable {s : State} {a : Word} {d : List Byte} {u o w pos : Nat} {phase : Phase} {g : Regs} {es : List Event}

/-! ### A program that completes in time -/

/-- A double-word of an unlocked block whose program completes after `w` boundaries, within the budget, comes to the end of its
cleanup after `w` busy reads (R155, R220). -/
theorem reaches_end_of_doubleWord (hlive : s.live = true) (hlock : s.lock = false) (hop : s.op = .none) (hu : u < 2 ^ 32)
    (ho : g.a.toNat + 8 * u = o) (haligned : o % 8 = 0) (hin : o + 8 ≤ s.cfg.arraySize)
    (hw : w < s.cfg.progTimeout.toNat) (hdraws : s.completesAfter (padCount d u) w = true) :
    ∃ pos' g' es' x, g'.doubleWord = (g.a, BitVec.ofNat 32 u) ∧ g'.r = false ∧ busyReadCount es' = busyReadCount es + w ∧
      Reaches (w + 8) (s.writing a d pos (.clearBefore u) g es) x ∧
      sequencerTurn (fsmTurn x) = nextUnit (writeRun a d pos' .cleanupWrite g')
        ((s.afterUnit o (s.doubleWordBytes d u) (padCount d u + (w + 1))).writing a d pos' .cleanupWrite g' es') := by
  have hbudget : s.cfg.progTimeout ≠ 0 := fun hzero => by simp [hzero] at hw
  obtain ⟨g₁, es₁, hplace₁, hreads₁, hpoll⟩ := reaches_programPoll (a := a) (d := d) (pos := pos) (g := g) (es := es) hlive hlock
    hop hu ho haligned hin
  let busy := (s.armed o (s.doubleWordBytes d u)).afterDraws (padCount d u)
  have hdraws' : busy.completesAfter 0 w = true := by
    rw [completesAfter_congr (drawAt_afterDraws (s.armed o (s.doubleWordBytes d u)) (padCount d u))]
    exact hdraws
  obtain ⟨pos₂, g₂, es₂, hplace₂, hs₂, hreads₂, hdone⟩ := reaches_programDone (s := busy) (a := a) (d := d) (pos := pos + 5)
    (g := g₁) (es := es₁) hlive nofun rfl hw hdraws'
  let done := fsmComplete (busy.afterDraws (w + 1))
  have hdoneOp : done.op = .none := fsmComplete_op _
  have hdoneLive : done.live = true := (fsmComplete_live _).trans hlive
  have hdoneLock : done.lock = false := (fsmComplete_lock _).trans hlock
  have hdoneCfg : done.cfg = s.cfg := fsmComplete_cfg _
  obtain ⟨x, hclean, hend⟩ := reaches_cleanupWrite_of_doubleWord (s := done) (es := es₂) hdoneLive
    (pollExpired_of_done (hdoneCfg ▸ hbudget) hs₂)
  let clean : State := { done with flags := 0 }
  let g₃ := done.cleanupRegs false g₂
  let es₃ := es₂ ++ [registerEvent true srOffset srClear, registerEvent false crOffset done.crWord]
  have hc : g₃.c = clean.crWord := congrArg State.crWord (atCleanupRead_of_no_op hdoneOp)
  have hwrite := busCrWrite_clearPg (s := clean.writing a d (pos₂ + 2) .cleanupWrite g₃ es₃) hdoneLock hdoneOp
  have hlast := turn_cleanupWrite_of_busCrWrite (s := clean) (t := { clean with pg := false, latch := none })
    (congrArg (· &&& ~~~ crPg) hc) hwrite hdoneLive
  rw [atCleanupWrite_of_no_op hdoneOp, cleanupEvents_of_no_op hdoneOp] at hend
  rw [State.afterUnit, ← afterDraws_afterDraws]
  refine ⟨pos₂ + 2, g₃, _, x, hplace₂.trans hplace₁, rfl, ?_, ((hpoll.trans hdone).trans hclean).mono (by omega),
    hend.trans hlast⟩
  rw [← busyReadCount_congr hreads₁, ← hreads₂]
  exact busyReadCount_congr (by simp [statusReads, es₃])

/-! ### A poll that expires -/

/-- Clearing PG while a program is in flight aborts it (R137). -/
theorem busCrWrite_clearPg_of_program {lo hi : Word} (hlock : s.lock = false) (hop : s.op = .program o lo hi)
    (hpg : s.pg = true) :
    busCrWrite (s.crWord &&& ~~~ crPg) s =
      { s.logRegister true crOffset (some (s.crWord &&& ~~~ crPg)) with pg := false, latch := none, aborted := true } := by
  have hstrt : (s.crWord &&& ~~~ crPg).getLsbD 16 = false := by simp [State.strt, hop, Op.isErase]
  have hv : (s.crWord &&& ~~~ crPg).getLsbD 31 = false := by simp [hlock]
  rw [busCrWrite_of_no_start hlock (.inl hstrt), setLockIf_of_clear hv, crFields]
  simp [abortCheck, hop, hpg, Op.isErase, Op.isProgram]

/-- The block after a double-word of WRITE whose poll expired after `n` draws: its program is still in flight, and aborted
(R137, R223). -/
def State.abortedUnit (o : Nat) (bytes : List Byte) (n : Nat) (s : State) : State :=
  { (s.armed o bytes).afterDraws n with pg := false, aborted := true }

/-- A double-word of an unlocked block whose completion step comes neither in the poll nor in the cleanup ends WRITE with Timeout
(R177, R223). -/
theorem reaches_timeout_of_doubleWord (hlive : s.live = true) (hlock : s.lock = false) (hop : s.op = .none) (hu : u < 2 ^ 32)
    (ho : g.a.toNat + 8 * u = o) (haligned : o % 8 = 0) (hin : o + 8 ≤ s.cfg.arraySize)
    (hwaits : s.waitsFor (padCount d u) (s.cfg.progTimeout.toNat + 3) = true) :
    ∃ x es', busyReadCount es' = busyReadCount es + s.cfg.progTimeout.toNat ∧
      Reaches (s.cfg.progTimeout.toNat + 7) (s.writing a d pos (.clearBefore u) g es) x ∧
      sequencerTurn (fsmTurn x) =
        State.raiseTimeout { s.abortedUnit o (s.doubleWordBytes d u) (padCount d u + (s.cfg.progTimeout.toNat + 3)) with
          history := es' } := by
  obtain ⟨g₁, es₁, -, hreads₁, hpoll⟩ := reaches_programPoll (a := a) (d := d) (pos := pos) (g := g) (es := es) hlive hlock
    hop hu ho haligned hin
  let armed := s.armed o (s.doubleWordBytes d u)
  let busy := armed.afterDraws (padCount d u)
  obtain ⟨hpolls, hcleanup⟩ : busy.waitsFor 0 s.cfg.progTimeout.toNat = true ∧
      busy.waitsFor s.cfg.progTimeout.toNat 3 = true := by
    have hbusy := waitsFor_congr (s := s) (t := busy) (drawAt_afterDraws armed (padCount d u)) 0 (s.cfg.progTimeout.toNat + 3)
    simpa [waitsFor_add] using hbusy.trans hwaits
  obtain ⟨pos₂, g₂, es₂, hexpired, hreads₂, hdone⟩ := reaches_programExpired (s := busy) (a := a) (d := d) (pos := pos + 5)
    (g := g₁) (es := es₁) hlive nofun rfl hpolls
  let late := busy.afterDraws s.cfg.progTimeout.toNat
  obtain ⟨hread, hwrite, hevents⟩ := cleanup_of_waits (s := late) hlive nofun rfl
    (by rw [waitsFor_congr (drawAt_afterDraws busy s.cfg.progTimeout.toNat)]; exact hcleanup)
  obtain ⟨x, hclean, hend⟩ := reaches_cleanupWrite_of_doubleWord (s := late) (a := a) (d := d) (pos := pos₂) (g := g₂) (es := es₂)
    hlive hexpired
  let g₃ := late.cleanupRegs true g₂
  have hc : g₃.c = late.crWord := (congrArg State.crWord hread).trans rfl
  have habort := busCrWrite_clearPg_of_program
    (s := (late.afterDraws 3).writing a d (pos₂ + 2) .cleanupWrite g₃ (es₂ ++ late.cleanupEvents)) hlock rfl rfl
  have hlast := turn_cleanupWrite_of_busCrWrite (t := { late.afterDraws 3 with pg := false, latch := none, aborted := true })
    (congrArg (· &&& ~~~ crPg) hc) habort hlive
  rw [nextUnit_of_expired (g := g₃) rfl _ rfl] at hlast
  rw [hwrite] at hend
  rw [State.abortedUnit, ← afterDraws_afterDraws, ← afterDraws_afterDraws]
  have hbound : 5 + s.cfg.progTimeout.toNat + 2 ≤ s.cfg.progTimeout.toNat + 7 := by omega
  refine ⟨x, es₂ ++ late.cleanupEvents ++ [registerEvent true crOffset (late.crWord &&& ~~~ crPg)], ?_,
    ((hpoll.trans hdone).trans hclean).mono hbound, hend.trans hlast⟩
  rw [← busyReadCount_congr hreads₁]
  refine (busyReadCount_congr ?_).trans hreads₂
  simp [statusReads, hevents]

/-! ### A budget of 0 -/

/-- No turn of the flash FSM puts an erase in flight (R155). -/
theorem fsmTurn_isErase (h : s.op.isErase = false) : (fsmTurn s).op.isErase = false := by
  obtain ⟨hsame, -⟩ | ⟨-, -, ⟨hwait, -⟩ | ⟨hdone, -⟩⟩ := fsmTurn_cases s
  · rwa [hsame]
  · rwa [hwait]
  · rw [hdone, fsmComplete_op]
    rfl

/-- A CR write with STRT and PG 0 and LOCK as it is starts nothing: it takes the fields while unlocked, and is ignored while locked
(R135, R136). -/
theorem exists_busCrWrite_of_no_strt {v : Word} (hstrt : v.getLsbD 16 = false) (hpg : v.getLsbD 0 = false)
    (hv : v.getLsbD 31 = s.lock) :
    ∃ t : State, busCrWrite v (s.writing a d pos phase g es) =
        (t.writing a d pos phase g es).logRegister true crOffset (some v) ∧
      t.live = s.live ∧ (s.lock = false → t.pg = false) ∧ (s.lock = true → t = s) := by
  cases hlock : s.lock with
  | true => exact ⟨s, busCrWrite_of_locked hlock, rfl, nofun, fun _ => rfl⟩
  | false =>
    refine ⟨crFields v s, ?_, rfl, fun _ => hpg, nofun⟩
    rw [busCrWrite_of_no_start (s := s.writing a d pos phase g es) hlock (.inl hstrt), setLockIf_of_clear (hv.trans hlock)]
    rfl

/-- With a budget of 0 the double-word that was started, or not, comes straight to its cleanup (R177). -/
theorem reaches_clearAfter_of_no_program_budget (hlive : s.live = true) (hop : s.op = .none)
    (hmode : s.lock = true → s.pg = false ∧ s.cfg.unarmedWritePolicy = .ignore) (hbudget : s.cfg.progTimeout = 0)
    (hu : u < 2 ^ 32) (ho : g.a.toNat + 8 * u = o) (haligned : o % 8 = 0) (hin : o + 8 ≤ s.cfg.arraySize) :
    ∃ (t : State) (g' : Regs) (es' : List Event), t.live = true ∧ t.cfg = s.cfg ∧ t.lock = s.lock ∧ t.op.isErase = false ∧
      (s.lock = true → t.op = .none ∧ t.array = s.array) ∧ statusReads es' = statusReads es ∧
      Reaches 5 (s.writing a d pos (.clearBefore u) g es) (t.writing a d (pos + 5) .clearAfter g' es') := by
  have hphase : programPollPhase s.cfg = .clearAfter := if_pos hbudget
  rw [← hphase]
  cases hlock : s.lock with
  | true =>
    obtain ⟨hpg, hignore⟩ := hmode hlock
    obtain ⟨t, g', es', ⟨f, n, rfl⟩, hreads, hreach⟩ := reaches_programPoll_of_ignore (a := a) (d := d) (pos := pos) (es := es)
      hlive hlock hop hpg hignore hu ho haligned hin
    exact ⟨{ s.afterDraws n with flags := f }, g', es', hlive, rfl, hlock, congrArg Op.isErase hop, fun _ => ⟨hop, rfl⟩, hreads,
      hreach⟩
  | false =>
    obtain ⟨g', es', -, hreads, hreach⟩ := reaches_programPoll (a := a) (d := d) (pos := pos) (es := es)
      hlive hlock hop hu ho haligned hin
    exact ⟨(s.armed o (s.doubleWordBytes d u)).afterDraws (padCount d u), g', es', hlive, rfl, hlock, rfl, nofun, hreads,
      hreach⟩

/-- The cleanup of a double-word with a budget of 0 ends WRITE with Timeout, whether or not the program is completed meanwhile
(R155, R177, R220). -/
theorem reaches_timeout_of_no_program_budget (hlive : s.live = true) (hbudget : s.cfg.progTimeout = 0)
    (hop : s.op.isErase = false) :
    ∃ (x t : State) (es' : List Event), t.live = true ∧ (s.lock = false → t.pg = false) ∧
      (s.lock = true → s.op = .none → t.op = .none ∧ t.array = s.array) ∧ statusReads es' = statusReads es ∧
      Reaches 2 (s.writing a d pos .clearAfter g es) x ∧
      sequencerTurn (fsmTurn x) = State.raiseTimeout { t with history := es' } := by
  have hexpired : pollExpired s.cfg (writeRun a d pos .clearAfter g) = true :=
    Bool.or_eq_true_iff.mpr (.inl (decide_eq_true hbudget))
  obtain ⟨x, hreach, hend⟩ := reaches_cleanupWrite_of_doubleWord (es := es) hlive hexpired
  have hlock : s.atCleanupRead.lock = s.lock := by simp [State.atCleanupRead, State.statusCleared]
  have hlock' : s.atCleanupWrite.lock = s.lock := (fsmTurn_lock _).trans hlock
  have hlive' : s.atCleanupWrite.live = true := by
    simp only [State.atCleanupWrite, State.atCleanupRead, fsmTurn_live]
    exact (fsmTurn_live s).trans hlive
  have hstrt : s.atCleanupRead.strt = false := fsmTurn_isErase (s := s.statusCleared) (fsmTurn_isErase hop)
  let v := s.atCleanupRead.crWord &&& ~~~ crPg
  have hv : v.getLsbD 31 = s.atCleanupWrite.lock := by simp [v, hlock, hlock']
  obtain ⟨t, hwrite, htlive, htpg, htsame⟩ := exists_busCrWrite_of_no_strt (a := a) (d := d) (pos := pos + 2)
    (phase := .cleanupWrite) (g := s.cleanupRegs true g) (es := es ++ s.cleanupEvents) (v := v) (by simp [v, hstrt])
    (by simp [v]) hv
  rw [turn_cleanupWrite_of_busCrWrite rfl hwrite (htlive.trans hlive'),
    nextUnit_of_expired (g := s.cleanupRegs true g) rfl _ rfl] at hend
  refine ⟨x, t, es ++ s.cleanupEvents ++ [registerEvent true crOffset v], htlive.trans hlive',
    fun h => htpg (hlock'.trans h), fun h hop => ?_, ?_, hreach, hend⟩
  · rw [htsame (hlock'.trans h), atCleanupWrite_of_no_op hop]
    exact ⟨hop, rfl⟩
  · simp [statusReads, cleanupEvents_no_statusRead]

end

end Sys2Proof.Machine
end

section
/-! SUPPORT. What a double-word of WRITE does to any bytes, and the block between the double-words (44_write.md R220, R221,
40_register_bus.md R157, R158, R160). -/

namespace Sys2Proof.Machine

/-! ### The bytes of a double-word -/

section
variable {s t : State} {d : List Byte} {u i o n : Nat} {bytes : List Byte}

/-- The bytes of double-word `u`: its data, and then a draw for each pad byte (R221). -/
theorem doubleWordBytes_getD_eq (hu : u < doubleWords d.length) (hi : i < 8) :
    (t.doubleWordBytes d u).getD i 0 =
      if 8 * u + i < d.length then d.getD (8 * u + i) 0 else drawByte (t.drawAt (8 * u + i - d.length)) := by
  have hlen := dataChunk_length (d := d) (u := u)
  unfold State.doubleWordBytes
  split
  case isTrue hdata =>
    rw [List.getD_append _ _ _ _ (by omega)]
    simp [dataChunk, List.getD_eq_getElem?_getD, hi]
  case isFalse hpast =>
    have hpad : i - (dataChunk d u).length < padCount d u := by
      unfold padCount
      omega
    have hlast : 8 * u < d.length := by
      unfold doubleWords ceil8 at hu
      omega
    rw [List.getD_append_right _ _ _ _ (by omega), drawBytes_getD _ _ _ _ hpad]
    congr 2
    omega

/-- The eight bytes of two words, the low one first (R73). -/
theorem extractLsb'_append_words (lo hi : Word) (h : i < 8) :
    (hi ++ lo).extractLsb' (8 * i) 8 = (bytesOfWord lo ++ bytesOfWord hi).getD i 0 := by
  obtain hlow | hhigh := Nat.lt_or_ge i 4
  · rw [BitVec.extractLsb'_append_eq_of_add_le (by omega)]
    interval_cases i <;> rfl
  · rw [BitVec.extractLsb'_append_eq_of_le (by omega)]
    interval_cases i <;> rfl

theorem drawBytes_afterDraws (k m : Nat) : (s.afterDraws n).drawBytes k m = s.drawBytes (n + k) m := by
  induction m generalizing k with
  | zero => rfl
  | succ m ih => simp only [State.drawBytes, drawAt_afterDraws, ih, Nat.add_assoc]

/-! ### The completion of a double-word -/

/-- The bytes that the completion step puts after `n` draws: over erased bytes the bytes programmed, and else draws (R157,
R158). -/
def State.completedBytes (s : State) (o : Nat) (bytes : List Byte) (n : Nat) : List Byte :=
  if s.erasedAt o then bytes else s.drawBytes n 8

theorem completedBytes_length (hlen : bytes.length = 8) : (s.completedBytes o bytes n).length = 8 := by
  unfold State.completedBytes
  split
  · exact hlen
  · exact drawBytes_length s 8 n

/-- The completion step of a WRITE's double-word over bytes that are not all erased (R158, R160). -/
theorem fsmComplete_armed_of_dirty (hdirty : s.erasedAt o = false) :
    fsmComplete ((s.armed o bytes).afterDraws n) = finishOp (.program o (wordAt bytes 0) (wordAt bytes 4))
      (if o / s.cfg.page ∈ s.cfg.wrpPages then (s.armed o bytes).afterDraws n
        else ((s.armed o bytes).afterDraws n).drawInto o 8) := by
  refine congrArg (finishOp _) ?_
  split
  case isTrue hprotected => exact completeProgram_of_protected hprotected
  case isFalse hfree => exact completeProgram_of_disturbed hfree (.inr hdirty)

theorem afterUnit_array_eq (hlen : bytes.length = 8) :
    (s.afterUnit o bytes n).array =
      if o / s.cfg.page ∈ s.cfg.wrpPages then s.array else (s.putBytes o (s.completedBytes o bytes n)).array := by
  unfold State.completedBytes
  cases herased : s.erasedAt o with
  | true => simpa using afterUnit_array hlen herased
  | false =>
    simp only [State.afterUnit, fsmComplete_armed_of_dirty herased]
    split
    · rfl
    · exact congrArg (memWriteBytes s.cfg.initialByte s.array o) (drawBytes_afterDraws (s := s.armed o bytes) 0 8)

/-- The completion step takes a draw for each byte that it draws, and one for the flags (R158, R161). -/
theorem afterUnit_drawAt_eq (hlen : bytes.length = 8) (k : Nat) :
    (s.afterUnit o bytes n).drawAt k = s.drawAt (n + (if s.dirtyAt o then 9 else 1) + k) := by
  unfold State.dirtyAt
  cases herased : s.erasedAt o with
  | true => simpa using afterUnit_drawAt hlen herased k
  | false =>
    have hdraws (m : Nat) : ((s.afterDraws n).afterDraws m).drawAt k = s.drawAt (n + m + k) := by
      rw [afterDraws_afterDraws, drawAt_afterDraws]
    simp only [State.afterUnit, fsmComplete_armed_of_dirty herased]
    by_cases hprotected : o / s.cfg.page ∈ s.cfg.wrpPages
    · rw [if_pos hprotected, if_neg (by simp [hprotected])]
      exact hdraws 1
    · rw [if_neg hprotected, if_pos (by simp [hprotected]), ← hdraws 9, ← afterDraws_afterDraws (s.afterDraws n) 8 1]
      rfl

theorem afterUnit_keeps_memoryOk (hmem : s.memoryOk = true) (hlen : bytes.length = 8) (hin : o + 8 ≤ s.cfg.arraySize) :
    (s.afterUnit o bytes n).memoryOk = true := by
  have hput := putBytes_memoryOk s o (s.completedBytes o bytes n) hmem (by rwa [completedBytes_length hlen])
  simp only [State.memoryOk, afterUnit_cfg, afterUnit_array_eq hlen] at hmem hput ⊢
  split
  · exact hmem
  · exact hput

/-- After a double-word every byte outside it is as before, and its bytes are the completed ones, unless its page is protected. -/
theorem afterUnit_byteAt_eq (hmem : s.memoryOk = true) (hlen : bytes.length = 8) (x : Nat) :
    (s.afterUnit o bytes n).byteAt x =
      if (o ≤ x ∧ x < o + 8) ∧ o / s.cfg.page ∉ s.cfg.wrpPages then (s.completedBytes o bytes n).getD (x - o) 0
      else s.byteAt x := by
  have hput := byteAt_putBytes s o (s.completedBytes o bytes n) x hmem
  simp only [State.byteAt, afterUnit_cfg, afterUnit_array_eq hlen] at hput ⊢
  by_cases hprotected : o / s.cfg.page ∈ s.cfg.wrpPages
  · simp [hprotected]
  · simpa [hprotected, completedBytes_length hlen] using hput

end

/-! ### Between the double-words -/

/-- Byte `k` of double-word `i` after a WRITE of `d` at `a` from `s`, each double-word `j` waiting `waits j` boundaries: unchanged
in a protected page, drawn where a byte was not erased, and else a data byte or, after the data, a drawn pad byte (R157, R158,
R160, R221). -/
def State.rewrittenByte (s : State) (a : Nat) (d : List Byte) (waits : Nat → Nat) (i k : Nat) : Byte :=
  if (a + 8 * i) / s.cfg.page ∈ s.cfg.wrpPages then s.byteAt (a + 8 * i + k)
  else if ∃ l < 8, s.byteAt (a + 8 * i + l) ≠ s.cfg.erasedByte then
    drawByte (s.drawAt (s.writeDraw a waits i + padCount d i + waits i + 1 + k))
  else if 8 * i + k < d.length then d.getD (8 * i + k) 0
  else drawByte (s.drawAt (s.writeDraw a waits i + (8 * i + k - d.length)))

/-- After `j` double-words of a WRITE of `d` at `a` to the block `s`: nothing is in flight, their bytes are rewritten, and every
other byte is as it was; `es` is the `HISTORY` (R74, R220). -/
structure Rewritten (s : State) (a : Nat) (d : List Byte) (waits : Nat → Nat) (j : Nat) (es : List Event) (t : State) :
    Prop where
  kept : t.kept = s.discovered.kept
  op : t.op = .none
  memory : t.memoryOk = true
  draws : j < doubleWords d.length → ∀ k, t.drawAt k = s.drawAt (s.writeDraw a waits j + k)
  bytes : ∀ i < j, ∀ k < 8, t.byteAt (a + 8 * i + k) = s.rewrittenByte a d waits i k
  others : ∀ x, x < a ∨ a + 8 * j ≤ x → t.byteAt x = s.byteAt x
  cleaned : 0 < j → t.cleaned
  busyReads : busyReadCount es = busyReadCount s.history + ∑ i ∈ Finset.range j, waits i

section
variable {s t : State} {a j m : Nat} {d : List Byte} {waits : Nat → Nat} {es es' : List Event}

/-- Where WRITE begins its first double-word. -/
theorem rewritten_zero (hop : s.op = .none) (hmem : s.memoryOk = true) :
    Rewritten s a d waits 0 (s.discovered.history ++ [registerEvent false srOffset s.srWord]) s.discovered := by
  have hreads := (busyReadCount_busyCheck hop s.discovered.history).trans (discovered_busyReadCount s)
  obtain ⟨cache, history, hdiscovered⟩ := exists_discovered_eq s
  rw [hdiscovered] at hreads ⊢
  exact {
    kept := congrArg State.kept hdiscovered.symm
    op := hop
    memory := hmem
    draws := fun _ k => congrArg s.drawAt (Nat.zero_add k).symm
    bytes := fun i hi => absurd hi (Nat.not_lt_zero i)
    others := fun _ _ => rfl
    cleaned := fun h => absurd h (lt_irrefl 0)
    busyReads := hreads }

theorem Rewritten.same (h : Rewritten s a d waits j es t) :
    t.cfg = s.cfg ∧ t.per = s.per ∧ t.pnb = s.pnb ∧ t.lock = s.lock ∧ t.keyStage = s.keyStage ∧ t.live = s.live := by
  obtain ⟨hcfg, hper, hpnb, hlock, hstage, -, -, -, hfault, hrefused⟩ := kept_eq_iff.mp h.kept
  obtain ⟨cache, history, hdiscovered⟩ := exists_discovered_eq s
  rw [hdiscovered] at hcfg hper hpnb hlock hstage hfault hrefused
  exact ⟨hcfg, hper, hpnb, hlock, hstage, live_congr hfault hrefused⟩

theorem Rewritten.erasedAt (h : Rewritten s a d waits j es t) : t.erasedAt (a + 8 * j) = s.erasedAt (a + 8 * j) := by
  obtain ⟨hcfg, -⟩ := h.same
  rw [Bool.eq_iff_iff, erasedAt_iff, erasedAt_iff, hcfg]
  exact forall₂_congr fun i _ => by rw [h.others _ (.inr (Nat.le_add_right _ i))]

/-- The bytes that the completion step of the next double-word puts. -/
theorem Rewritten.completedBytes_getD (h : Rewritten s a d waits j es t) (hj : j < doubleWords d.length) {k : Nat} (hk : k < 8) :
    (t.completedBytes (a + 8 * j) (t.doubleWordBytes d j) (padCount d j + (waits j + 1))).getD k 0 =
      if ∃ l < 8, s.byteAt (a + 8 * j + l) ≠ s.cfg.erasedByte then
        drawByte (s.drawAt (s.writeDraw a waits j + padCount d j + waits j + 1 + k))
      else if 8 * j + k < d.length then d.getD (8 * j + k) 0
      else drawByte (s.drawAt (s.writeDraw a waits j + (8 * j + k - d.length))) := by
  have hdraws := h.draws hj
  rw [State.completedBytes, h.erasedAt]
  cases herased : s.erasedAt (a + 8 * j) with
  | true =>
    have hclean : ¬ ∃ l < 8, s.byteAt (a + 8 * j + l) ≠ s.cfg.erasedByte := by simpa using erasedAt_iff.mp herased
    rw [if_pos rfl, if_neg hclean, doubleWordBytes_getD_eq hj hk, hdraws]
  | false =>
    have hdirty : ∃ l < 8, s.byteAt (a + 8 * j + l) ≠ s.cfg.erasedByte := by
      by_contra hclean
      exact Bool.false_ne_true (herased.symm.trans (erasedAt_iff.mpr (by simpa using hclean)))
    rw [if_neg Bool.false_ne_true, if_pos hdirty, drawBytes_getD _ _ _ _ hk, hdraws]
    congr 2
    omega

/-- The next double-word is rewritten. -/
theorem Rewritten.succ (h : Rewritten s a d waits j es t) (ha : a % 8 = 0)
    (hin : a + d.length ≤ s.cfg.arraySize) (hj : j < doubleWords d.length)
    (hreads : busyReadCount es' = busyReadCount es + waits j) :
    Rewritten s a d waits (j + 1) es'
      (t.afterUnit (a + 8 * j) (t.doubleWordBytes d j) (padCount d j + (waits j + 1))) := by
  obtain ⟨hcfg, -⟩ := h.same
  have hrange : a + 8 * j + 8 ≤ t.cfg.arraySize := by
    have := doubleWords_in_array ha hin
    rw [hcfg]
    omega
  have hbyte := afterUnit_byteAt_eq (o := a + 8 * j) (n := padCount d j + (waits j + 1)) h.memory
    (doubleWordBytes_length (t := t) (d := d) (u := j))
  have houtside {x : Nat} (hx : x < a + 8 * j ∨ a + 8 * j + 8 ≤ x) :
      (t.afterUnit (a + 8 * j) (t.doubleWordBytes d j) (padCount d j + (waits j + 1))).byteAt x = t.byteAt x :=
    (hbyte x).trans (if_neg (by omega))
  exact {
    kept := afterUnit_kept.trans h.kept
    op := afterUnit_op
    memory := afterUnit_keeps_memoryOk h.memory doubleWordBytes_length hrange
    draws := fun hmore k => by
      have hdirty : t.dirtyAt (a + 8 * j) = s.dirtyAt (a + 8 * j) := by
        rw [State.dirtyAt, State.dirtyAt, hcfg, h.erasedAt]
      rw [afterUnit_drawAt_eq doubleWordBytes_length, h.draws hj, padCount_of_not_last hmore, State.writeDraw, hdirty]
      congr 1
      split <;> omega
    bytes := fun i hi k hk => by
      obtain hlt | rfl := Nat.lt_succ_iff_lt_or_eq.mp hi
      · rw [houtside (by omega), h.bytes i hlt k hk]
      · rw [hbyte, hcfg, Nat.add_sub_cancel_left, h.completedBytes_getD hj hk, h.others _ (by omega), State.rewrittenByte]
        by_cases hprotected : (a + 8 * i) / s.cfg.page ∈ s.cfg.wrpPages
        · rw [if_neg (fun hin => hin.2 hprotected), if_pos hprotected]
        · rw [if_pos ⟨by omega, hprotected⟩, if_neg hprotected]
    others := fun x hx => by rw [houtside (by omega), h.others x (by omega)]
    cleaned := fun _ => afterUnit_cleaned
    busyReads := by rw [hreads, h.busyReads, Finset.sum_range_succ, Nat.add_assoc] }

end

end Sys2Proof.Machine
end

section
/-! SUPPORT. WRITE of an unlocked block, double-word after double-word, from the command's start to its response or to a double-word
whose poll expires (44_write.md R220, R223). -/

namespace Sys2Proof.Machine

/-- The premises of a WRITE of `d` to an unlocked, quiet block: an aligned span inside the array, and the completion step of each of
the first `m` double-words within the budget (R220, D29). -/
structure RewritePremises (s : State) (a : Word) (d : List Byte) (m : Nat) (waits : Nat → Nat) : Prop where
  inv : StateInv s
  quiet : Quiet s
  unlocked : s.lock = false
  aligned : a.toNat % 8 = 0
  inArray : a.toNat + d.length ≤ s.cfg.arraySize
  count : m ≤ doubleWords d.length
  inTime : ∀ i < m, waits i < s.cfg.progTimeout.toNat ∧
    s.completesAfter (s.writeDraw a.toNat waits i + padCount d i) (waits i) = true

section
variable {s t : State} {a : Word} {d : List Byte} {waits : Nat → Nat} {m j u pos : Nat} {g g' : Regs} {es : List Event}

theorem doubleWord_toNat (h : g.doubleWord = (a, BitVec.ofNat 32 u)) (hu : u < 2 ^ 32) : g.a = a ∧ g.u.toNat = u := by
  obtain ⟨ha, hgu⟩ := Prod.mk.inj h
  exact ⟨ha, by rw [hgu, BitVec.toNat_ofNat, Nat.mod_eq_of_lt hu]⟩

/-- A double-word of data inside the array is inside it, and its index fits a word. -/
theorem doubleWord_in_array {c : Config} {a n : Nat} (ha : a % 8 = 0) (hin : a + n ≤ c.arraySize) (hj : j < doubleWords n) :
    a + 8 * j + 8 ≤ c.arraySize ∧ j < 2 ^ 32 := by
  have hrange := doubleWords_in_array ha hin
  have hsize := arraySize_le (c := c)
  omega

/-- WRITE rewrites double-word `j` and comes to the end of its cleanup (R220). -/
theorem Rewritten.reaches_end (h : Rewritten s a.toNat d waits j es t) (hs : RewritePremises s a d m waits) (hj : j < m)
    (hg : g.a = a) :
    ∃ pos' g' es' x u, g'.doubleWord = (a, BitVec.ofNat 32 j) ∧ g'.r = false ∧ Rewritten s a.toNat d waits (j + 1) es' u ∧
      Reaches (s.cfg.progTimeout.toNat + 7) (t.writing a d pos (.clearBefore j) g es) x ∧
      sequencerTurn (fsmTurn x) =
        nextUnit (writeRun a d pos' .cleanupWrite g') (u.writing a d pos' .cleanupWrite g' es') := by
  have haligned := hs.aligned
  have hcount : j < doubleWords d.length := hj.trans_le hs.count
  obtain ⟨⟨hlive, -⟩, -⟩ := hs.quiet
  obtain ⟨hw, hcompletes⟩ := hs.inTime j hj
  obtain ⟨hcfg, -, -, hlock, -, hlive'⟩ := h.same
  obtain ⟨hrange, hsmall⟩ := doubleWord_in_array haligned hs.inArray hcount
  have hdraws : t.completesAfter (padCount d j) (waits j) = true := by
    rw [completesAfter_congr (h.draws hcount)]
    exact hcompletes
  obtain ⟨pos', g', es', x, hplace, hr, hreads, hreach, hend⟩ := reaches_end_of_doubleWord (a := a) (d := d) (u := j)
    (o := a.toNat + 8 * j) (pos := pos) (g := g) (es := es) (hlive'.trans hlive) (hlock.trans hs.unlocked) h.op hsmall
    (by rw [hg]) (by omega) (hcfg ▸ hrange) (hcfg ▸ hw) hdraws
  exact ⟨pos', g', es', x, _, hg ▸ hplace, hr, h.succ haligned hs.inArray hcount hreads, hreach.mono (by omega), hend⟩

/-- WRITE of data in the array, on a quiet block, comes to its first double-word with the busy check logged after discovery (R174,
R179, R220). -/
theorem reaches_firstDoubleWord_withHistory (hinv : StateInv s) (hquiet : Quiet s) (hd : d ≠ []) (haligned : a.toNat % 8 = 0)
    (hin : a.toNat + d.length ≤ s.cfg.arraySize) :
    ∃ pos g, g.a = a ∧ Reaches 2 (s.accept (.write a (some d)))
      (s.discovered.writing a d pos (.clearBefore 0) g (s.discovered.history ++ [registerEvent false srOffset s.srWord])) := by
  obtain ⟨hadmissible, -, -, -, -, hcache⟩ := stateInv_iff.mp hinv
  obtain ⟨⟨hlive, -⟩, hop⟩ := hquiet
  have hlength : d.length ≠ 0 := (List.length_pos_iff.mpr hd).ne'
  have hchecked : writeChecks s.cfg s.discovered.chipSizeCache a (some d) = .busyCheck := by
    have hbase := flashBase_mod_eight hadmissible
    have haddress : ¬ arrayAddress s.cfg a.toNat % 8 ≠ 0 := by
      unfold arrayAddress
      omega
    simp only [writeChecks, if_neg haddress, discovered_chipSizeCache_toNat hcache, inRange_of_le hlength hin, if_true]
  obtain ⟨pos, hstart⟩ := reaches_busyCheck (c := .write a (some d)) hop hlive rfl hchecked
  obtain ⟨cache, es, hdiscovered⟩ := exists_discovered_eq s
  rw [hdiscovered] at hstart ⊢
  exact ⟨pos + 1, _, rfl, hstart.trans (reaches_of_turn
    (boundary_busyCheck (s := { s with chipSizeCache := cache, history := es }) hop hd) hlive)⟩

theorem ne_nil_of_doubleWords (h : j < doubleWords d.length) : d ≠ [] := by
  rintro rfl
  exact Nat.not_lt_zero j h

/-- From the command's start WRITE comes to double-word `j`. -/
theorem RewritePremises.reaches_doubleWord (hs : RewritePremises s a d m waits) (hj : j ≤ m) (hcount : j < doubleWords d.length) :
    ∃ pos g es t, g.a = a ∧ Rewritten s a.toNat d waits j es t ∧
      Reaches (2 + (s.cfg.progTimeout.toNat + 8) * j) (s.accept (.write a (some d)))
        (t.writing a d pos (.clearBefore j) g es) := by
  obtain ⟨-, hmem, -⟩ := stateInv_iff.mp hs.inv
  obtain ⟨⟨hlive, -⟩, hop⟩ := hs.quiet
  induction j with
  | zero =>
    obtain ⟨pos, g, hg, hreach⟩ := reaches_firstDoubleWord_withHistory hs.inv hs.quiet (ne_nil_of_doubleWords hcount) hs.aligned
      hs.inArray
    exact ⟨pos, g, _, _, hg, rewritten_zero hop hmem, hreach⟩
  | succ j ih =>
    obtain ⟨pos₁, g₁, es₁, t, hg₁, ht, hreach⟩ := ih (by omega) (by omega)
    obtain ⟨pos₂, g₂, es₂, x, u, hplace, hr, hu, hunit, hend⟩ := ht.reaches_end (pos := pos₁) hs hj hg₁
    obtain ⟨-, hsmall⟩ := doubleWord_in_array hs.aligned hs.inArray hcount
    obtain ⟨hg₂, hindex⟩ := doubleWord_toNat hplace (by omega)
    obtain ⟨-, -, -, -, -, hlive'⟩ := hu.same
    rw [nextUnit_goesOn hr hindex hcount] at hend
    refine ⟨pos₂ + 1, g₂, es₂, u, hg₂, hu, ((hreach.trans hunit).trans (reaches_of_turn hend (hlive'.trans hlive))).mono ?_⟩
    rw [Nat.mul_succ]
    omega

/-- WRITE whose double-words all complete in time answers OK with the padded length (R220, R221). -/
theorem RewritePremises.exec_ok (hs : RewritePremises s a d (doubleWords d.length) waits) (hd : d ≠ []) :
    ∃ es t, Rewritten s a.toNat d waits (doubleWords d.length) es t ∧
      exec (.write a (some d)) s = .next (State.respond .ok (BitVec.ofNat 32 (ceil8 d.length)) [] { t with history := es }) := by
  obtain ⟨n, hn⟩ := Nat.exists_eq_succ_of_ne_zero (doubleWords_pos hd).ne'
  have hlast : n < doubleWords d.length := by omega
  obtain ⟨⟨hlive, -⟩, -⟩ := hs.quiet
  obtain ⟨pos₁, g₁, es₁, t, hg₁, ht, hreach⟩ := hs.reaches_doubleWord hlast.le hlast
  obtain ⟨pos₂, g₂, es₂, x, u, hplace, hr, hu, hunit, hend⟩ := ht.reaches_end (pos := pos₁) hs hlast hg₁
  obtain ⟨-, hsmall⟩ := doubleWord_in_array hs.aligned hs.inArray hlast
  obtain ⟨-, hindex⟩ := doubleWord_toNat hplace hsmall
  obtain ⟨-, -, -, -, -, hlive'⟩ := hu.same
  have hbound : 2 + (s.cfg.progTimeout.toNat + 8) * n + (s.cfg.progTimeout.toNat + 7) ≤
      commandBound s.cfg (.write a (some d)) := by
    rw [commandBound, hn, Nat.mul_succ]
    omega
  rw [nextUnit_ends hr hindex hn.symm, eight_mul_doubleWords] at hend
  exact ⟨es₂, u, hn ▸ hu, (hreach.trans hunit).exec_eq rfl hs.quiet hbound hend rfl (hlive'.trans hlive)⟩

/-- WRITE whose double-word `j` is not completed in time answers Timeout, the program of that double-word in flight and aborted
(R137, R223). -/
theorem RewritePremises.exec_timeout (hs : RewritePremises s a d j waits) (hj : j < doubleWords d.length)
    (hlate : s.waitsFor (s.writeDraw a.toNat waits j + padCount d j) (s.cfg.progTimeout.toNat + 3) = true) :
    ∃ es es' t n, Rewritten s a.toNat d waits j es t ∧ busyReadCount es' = busyReadCount es + s.cfg.progTimeout.toNat ∧
      exec (.write a (some d)) s =
        .next (State.raiseTimeout { t.abortedUnit (a.toNat + 8 * j) (t.doubleWordBytes d j) n with history := es' }) := by
  have haligned := hs.aligned
  obtain ⟨⟨hlive, -⟩, -⟩ := hs.quiet
  obtain ⟨pos, g, es, t, hg, ht, hreach⟩ := hs.reaches_doubleWord le_rfl hj
  obtain ⟨hcfg, -, -, hlock, -, hlive'⟩ := ht.same
  obtain ⟨hrange, hsmall⟩ := doubleWord_in_array haligned hs.inArray hj
  have hwaits : t.waitsFor (padCount d j) (t.cfg.progTimeout.toNat + 3) = true := by
    rw [waitsFor_congr (ht.draws hj), hcfg]
    exact hlate
  obtain ⟨x, es', hreads, hunit, hend⟩ := reaches_timeout_of_doubleWord (a := a) (d := d) (u := j) (o := a.toNat + 8 * j)
    (pos := pos) (g := g) (es := es) (hlive'.trans hlive) (hlock.trans hs.unlocked) ht.op hsmall (by rw [hg]) (by omega)
    (hcfg ▸ hrange) hwaits
  rw [hcfg] at hreads hunit
  have hbound : 2 + (s.cfg.progTimeout.toNat + 8) * j + (s.cfg.progTimeout.toNat + 7) ≤
      commandBound s.cfg (.write a (some d)) := by
    have hunits := Nat.mul_le_mul_left (s.cfg.progTimeout.toNat + 8) (Nat.succ_le_of_lt hj)
    rw [Nat.mul_succ] at hunits
    simp only [commandBound]
    omega
  exact ⟨es, es', t, _, ht, hreads, (hreach.trans hunit).exec_eq rfl hs.quiet hbound hend rfl (hlive'.trans hlive)⟩

/-- With a budget of 0 WRITE answers Timeout in its first double-word, with no SR read after the busy check (R177, R222, R223). -/
theorem exec_write_of_no_budget (hinv : StateInv s) (hquiet : Quiet s)
    (hmode : s.lock = true → s.pg = false ∧ s.cfg.unarmedWritePolicy = .ignore) (hbudget : s.cfg.progTimeout = 0) (hd : d ≠ [])
    (haligned : a.toNat % 8 = 0) (hin : a.toNat + d.length ≤ s.cfg.arraySize) :
    ∃ (es : List Event) (t : State), exec (.write a (some d)) s = .next (State.raiseTimeout { t with history := es }) ∧
      statusReadCount es = statusReadCount s.history + 1 ∧ (s.lock = false → t.pg = false) ∧
      (s.lock = true → t.array = s.array ∧ t.op = .none) := by
  have hcount := doubleWords_pos hd
  obtain ⟨⟨hlive, -⟩, hop⟩ := id hquiet
  obtain ⟨hrange, hsmall⟩ := doubleWord_in_array haligned hin hcount
  obtain ⟨pos, g, hg, hfirst⟩ := reaches_firstDoubleWord_withHistory hinv hquiet hd haligned hin
  obtain ⟨cache, history, hdiscovered⟩ := exists_discovered_eq s
  have hhistory := discovered_statusReadCount s
  rw [hdiscovered] at hfirst hhistory
  obtain ⟨u, g', es, hulive, hucfg, hulock, huop, hulocked, hreads, hstart⟩ := reaches_clearAfter_of_no_program_budget
    (s := { s with chipSizeCache := cache, history := history }) (a := a) (d := d) (u := 0) (o := a.toNat + 8 * 0) (pos := pos)
    (g := g) (es := history ++ [registerEvent false srOffset s.srWord]) hlive hop hmode hbudget hsmall (by rw [hg]) haligned hrange
  obtain ⟨x, t, es', htlive, htpg, htlocked, hreads', hclean, hend⟩ := reaches_timeout_of_no_program_budget (a := a) (d := d)
    (pos := pos + 5) (g := g') (es := es) hulive (hucfg ▸ hbudget) huop
  have hbound : 2 + 5 + 2 ≤ commandBound s.cfg (.write a (some d)) := by
    have hunits := Nat.le_mul_of_pos_right (s.cfg.progTimeout.toNat + 8) hcount
    simp only [commandBound]
    omega
  refine ⟨es', t, ((hfirst.trans hstart).trans hclean).exec_eq rfl hquiet hbound hend rfl htlive, ?_,
    fun h => htpg (hulock.trans h), fun h => ?_⟩
  · have hsame : statusReadCount es' = statusReadCount (history ++ [registerEvent false srOffset s.srWord]) :=
      congrArg List.length (hreads'.trans hreads)
    rw [hsame, statusReadCount_srRead, hhistory]
  · obtain ⟨huop, huarray⟩ := hulocked h
    obtain ⟨htop, htarray⟩ := htlocked (hulock.trans h) huop
    exact ⟨htarray.trans huarray, htop⟩

end

end Sys2Proof.Machine
end

section
/-! PROOFS. WRITE programs its data, or draws what was not erased (44_write.md R220, R221). -/

namespace Sys2Proof.Machine

/-- Settles O48: over erased bytes the data are stored, and over any bytes each double-word is stored or drawn. -/
theorem writeProgramsData : Obligations.WriteProgramsData := by
  unfold Obligations.WriteProgramsData
  refine ⟨fun s a d waits hinv hquiet hlock hd haligned hin herased hinTime => ?_,
    fun s a d waits hinv hquiet hlock hd haligned hin hinTime => ?_⟩
  · obtain ⟨t, hexec, ⟨hflags, hpg, hlatch, haborted⟩, ht⟩ := exec_write_over_erased hinv hquiet hlock hd haligned hin herased
      hinTime
    obtain ⟨hcfg, hper, hpnb, htlock, hstage, hcache, hrequests, -⟩ := kept_eq_iff.mp ht.kept
    have hbytes := ht.bytes
    rw [eight_mul_doubleWords] at hbytes
    rw [discovered_cfg] at hcfg hbytes
    obtain ⟨cache, history, hdiscovered⟩ := exists_discovered_eq s
    rw [hdiscovered] at hper hpnb htlock hstage hrequests hbytes
    refine ⟨_, hexec, rfl, rfl, fun i hi => ?_, fun o ho => (hbytes o).trans (if_neg (by omega)), ht.op, haborted, hflags, hpg,
      hlatch, hper, hpnb, htlock.trans hlock, hstage, hcfg, hcache, hrequests⟩
    refine (hbytes _).trans ?_
    by_cases hprotected : (a.toNat + i) / s.cfg.page ∈ s.cfg.wrpPages
    · rw [if_neg (fun h => h.2 hprotected), if_pos hprotected]
      rfl
    · rw [if_pos ⟨by omega, hprotected⟩, if_neg hprotected, Nat.add_sub_cancel_left]
      rfl
  · obtain ⟨-, -, -, -, -, hcache⟩ := stateInv_iff.mp hinv
    rw [capacity_eq_arraySize hcache] at hin
    have hs : RewritePremises s a d (doubleWords d.length) waits := ⟨hinv, hquiet, hlock, haligned, hin, le_rfl, hinTime⟩
    obtain ⟨es, t, ht, hexec⟩ := hs.exec_ok hd
    obtain ⟨hflags, hpg, hlatch, haborted⟩ := ht.cleaned (doubleWords_pos hd)
    obtain ⟨-, hper, hpnb, htlock, hstage, -⟩ := ht.same
    have hothers := ht.others
    rw [eight_mul_doubleWords] at hothers
    exact ⟨_, hexec, rfl, rfl, ht.bytes, hothers, ht.op, haborted, hflags, hpg, hlatch, hper, hpnb, htlock.trans hlock, hstage⟩

end Sys2Proof.Machine
end

section
/-! PROOFS. WRITE whose poll expires (44_write.md R223). -/

namespace Sys2Proof.Machine

section
variable {s t : State} {a j : Nat} {d : List Byte} {waits : Nat → Nat} {es : List Event}

theorem unitDraw_eq_sum (waits : Nat → Nat) (j : Nat) : unitDraw waits j = ∑ i ∈ Finset.range j, waits i + 2 * j := by
  induction j with
  | zero => rfl
  | succ j ih =>
    rw [unitDraw, ih, Finset.sum_range_succ]
    omega

/-- Over erased bytes no byte of a completion step is drawn. -/
theorem writeDraw_of_erased (herased : ∀ i < 8 * j, s.byteAt (a + i) = s.cfg.erasedByte) :
    s.writeDraw a waits j = unitDraw waits j := by
  induction j with
  | zero => rfl
  | succ j ih =>
    have hunit : s.erasedAt (a + 8 * j) = true := by
      rw [erasedAt_iff]
      intro i hi
      rw [Nat.add_assoc]
      exact herased _ (by omega)
    have hclean : s.dirtyAt (a + 8 * j) = false := by rw [State.dirtyAt, hunit, Bool.not_true, Bool.and_false]
    rw [State.writeDraw, unitDraw, ih fun i hi => herased i (by omega), hclean]
    rfl

/-- A data byte over erased bytes is stored, unless its page is protected (R157, R160). -/
theorem rewrittenByte_of_erased {i k : Nat} (herased : ∀ l < 8, s.byteAt (a + 8 * i + l) = s.cfg.erasedByte)
    (hdata : 8 * i + k < d.length) :
    s.rewrittenByte a d waits i k =
      if (a + 8 * i) / s.cfg.page ∈ s.cfg.wrpPages then s.byteAt (a + 8 * i + k) else d.getD (8 * i + k) 0 := by
  have hclean : ¬ ∃ l < 8, s.byteAt (a + 8 * i + l) ≠ s.cfg.erasedByte := fun ⟨l, hl, hdirty⟩ => hdirty (herased l hl)
  rw [State.rewrittenByte, if_neg hclean, if_pos hdata]

/-- Where bytes were erased and no page is protected, the data lie after some double-words (R157, R160). -/
theorem Rewritten.byteAt_of_erased (h : Rewritten s a d waits j es t) (hc : s.cfg.Admissible) (ha : a % 8 = 0)
    (hj : 8 * j ≤ d.length) (herased : ∀ i < 8 * j, s.byteAt (a + i) = s.cfg.erasedByte) (o : Nat) :
    t.byteAt o = if a ≤ o ∧ o < a + 8 * j ∧ o / s.cfg.page ∉ s.cfg.wrpPages then d.getD (o - a) 0 else s.byteAt o := by
  by_cases ho : a ≤ o ∧ o < a + 8 * j
  · obtain ⟨i, k, hi, hk, rfl⟩ : ∃ i k, i < j ∧ k < 8 ∧ o = a + 8 * i + k :=
      ⟨(o - a) / 8, (o - a) % 8, by omega, by omega, by omega⟩
    have hunit : ∀ l < 8, s.byteAt (a + 8 * i + l) = s.cfg.erasedByte := fun l hl => by
      rw [Nat.add_assoc]
      exact herased _ (by omega)
    have hpage : (a + 8 * i + k) / s.cfg.page = (a + 8 * i) / s.cfg.page := page_of_doubleWord hc (by omega) (by omega)
    have hindex : a + 8 * i + k - a = 8 * i + k := by omega
    rw [h.bytes i hi k hk, rewrittenByte_of_erased hunit (by omega), hpage, hindex]
    by_cases hprotected : (a + 8 * i) / s.cfg.page ∈ s.cfg.wrpPages
    · rw [if_pos hprotected, if_neg fun ⟨_, _, hfree⟩ => hfree hprotected]
    · rw [if_neg hprotected, if_pos ⟨by omega, by omega, hprotected⟩]
  · rw [h.others o (by omega), if_neg fun ⟨hfrom, hto, _⟩ => ho ⟨hfrom, hto⟩]

end

/-- The words of a double-word hold its bytes. -/
theorem extractLsb'_doubleWord {bytes : List Byte} {i : Nat} (hlen : bytes.length = 8) (hi : i < 8) :
    (wordAt bytes 4 ++ wordAt bytes 0).extractLsb' (8 * i) 8 = bytes.getD i 0 := by
  rw [extractLsb'_append_words _ _ hi, bytesOfWord_wordAt_append hlen]

/-- Settles O51: the late double-word ends WRITE after the double-words before it; with a budget of 0 the first one does. -/
theorem writeTimesOut : Obligations.WriteTimesOut := by
  unfold Obligations.WriteTimesOut
  refine ⟨fun s a d j waits hinv hquiet hlock hj haligned hin herased hinTime hlate => ?_,
    fun s a d hinv hquiet hmode hbudget hd haligned hin => ?_⟩
  · obtain ⟨hadmissible, -, -, -, -, hcache⟩ := stateInv_iff.mp hinv
    rw [capacity_eq_arraySize hcache] at hin
    have hdraw {i : Nat} (hi : i ≤ j) : s.writeDraw a.toNat waits i = unitDraw waits i :=
      writeDraw_of_erased fun l hl => herased l (by omega)
    have hs : RewritePremises s a d j waits := ⟨hinv, hquiet, hlock, haligned, hin, hj.le, fun i hi => by
      rw [hdraw hi.le, padCount_of_not_last (by omega)]
      exact hinTime i hi⟩
    obtain ⟨es, es', t, n, ht, hreads, hexec⟩ := hs.exec_timeout hj (by rwa [hdraw le_rfl])
    obtain ⟨-, hper, hpnb, htlock, hstage, -⟩ := ht.same
    have hdata : 8 * j ≤ d.length := by
      unfold doubleWords ceil8 at hj
      omega
    refine ⟨_, hexec, rfl, rfl, ht.byteAt_of_erased hadmissible haligned hdata herased,
      ⟨_, _, rfl, fun i hi => ?_⟩, rfl, rfl, rfl, hper, hpnb, htlock.trans hlock, hstage, ?_⟩
    · rw [extractLsb'_doubleWord doubleWordBytes_length hi, doubleWordBytes_getD_eq hj hi, ht.draws hj, hdraw le_rfl]
    · have hbefore := ht.busyReads
      have hsum := unitDraw_eq_sum waits j
      change busyReadCount es' = busyReadCount s.history + _ + _
      omega
  · obtain ⟨-, -, -, -, -, hcache⟩ := stateInv_iff.mp hinv
    rw [capacity_eq_arraySize hcache] at hin
    obtain ⟨es, t, hexec, hreads, hpg, hlocked⟩ := exec_write_of_no_budget hinv hquiet hmode hbudget hd haligned hin
    exact ⟨_, hexec, rfl, rfl, hreads, hpg, hlocked⟩

end Sys2Proof.Machine
end

section
/-! SUPPORT. READ of a ready block, busy or not: its byte reads with the flash FSM's turn between every two
(45_read_accessors.md R230, 40_register_bus.md R147, R148, R155). -/

namespace Sys2Proof.Machine

/-! ### The flash FSM's turn beside the run -/

section
variable {s : State}

theorem fsmTurn_history (s : State) : (fsmTurn s).history = s.history ++ s.turnEvents := by
  obtain ⟨hsame, hno⟩ | ⟨hlive, hop, ⟨hwait, hdraw⟩ | ⟨hdone, hdraw⟩⟩ := fsmTurn_cases s
  · have hnone : s.turnEvents = [] := if_neg fun ⟨hlive, hop, _⟩ => by simp_all
    rw [hsame, hnone, List.append_nil]
  · rw [hwait, turnEvents_of_wait hdraw, List.append_nil]
    rfl
  · rw [hdone, turnEvents_of_completion hlive hop hdraw]
    exact fsmComplete_history (s := s.afterDraws 1) hop

/-- The flash FSM's turn does not read the run (R155). -/
theorem fsmTurn_withRun (r : Run) : fsmTurn (s.withRun r) = (fsmTurn s).withRun r := by
  refine (fsmTurn_withTrace (s := s) r s.history).trans ?_
  rw [← fsmTurn_history]
  rfl

theorem fsmTurn_op_of_completion (hlive : s.live = true) (hop : s.op ≠ .none) (hdraw : drawBit (s.drawAt 0) = true) :
    (fsmTurn s).op = .none := by
  rw [fsmTurn_of_completion hlive hop hdraw]
  exact fsmComplete_op _

end

/-! ### One byte read -/

/-- The descriptor of a byte read, its offset as a word (R109, R110). -/
theorem descriptor_byteRead {o : Nat} (ho : o < 2 ^ 26) :
    descriptor false spaceArray widthByte (BitVec.ofNat 26 o) = 0x10000000 ||| BitVec.ofNat 32 o := by
  have hoffset : (BitVec.ofNat 26 o).setWidth 32 = BitVec.ofNat 32 o := by
    apply BitVec.eq_of_toNat_eq
    simp only [BitVec.toNat_setWidth, BitVec.toNat_ofNat]
    omega
  rw [← hoffset]
  rfl

section
variable {s : State} {a b : Word} {o : Nat}

/-- A byte read inside the array stops nothing (R149). -/
theorem busArrayRead_live (ho : o < s.cfg.arraySize) : (busArrayRead o s).live = s.live := by
  refine live_congr (busArrayRead_fault o s) ?_
  rw [busArrayRead, if_pos ho]
  simp

/-- A byte read does not read the run. -/
theorem busArrayRead_withRun (r : Run) (ho : o < s.cfg.arraySize) :
    busArrayRead o (s.withRun r) = (busArrayRead o s).withRun r := by
  by_cases hop : s.op = .none
  · rw [busArrayRead_of_no_op hop ho]
    exact busArrayRead_of_no_op (s := s.withRun r) hop ho
  · rw [busArrayRead_of_op hop ho]
    exact busArrayRead_of_op (s := s.withRun r) hop ho

/-- The run of READ that has read some bytes (R230). -/
def byteRun (a b : Word) (pos : Nat) (phase : Phase) (bytes : List Byte) : Run :=
  ⟨.read a b true, pos, phase, { Regs.start (.read a b true) with buf := bytes }⟩

/-- A byte read of READ: the next one follows, or the response after the last (R230). -/
theorem stepByteRead_byteRun {pos : Nat} {phase : Phase} {bytes : List Byte} (hlive : s.live = true)
    (ho : a.toNat + bytes.length = o) (hin : o < s.cfg.arraySize) :
    stepByteRead (byteRun a b pos phase bytes) (s.withRun (byteRun a b pos phase bytes)) =
      if bytes.length + 1 < b.toNat then
        (busArrayRead o s).withRun (byteRun a b (pos + 1) .byteRead (bytes ++ [s.arrayValue o]))
      else (busArrayRead o s).respond .ok b (bytes ++ [s.arrayValue o]) := by
  subst ho
  have hlive' : ((busArrayRead (a.toNat + bytes.length) s).withRun (byteRun a b pos phase bytes)).live = true :=
    (busArrayRead_live hin).trans hlive
  exact (congrArg (State.andThen · _) (busArrayRead_withRun _ hin)).trans (andThen_of_live hlive')

end

/-! ### All byte reads -/

/-- The block at byte read number `n + 1` of a span, if it is `s` at the first: each byte read is followed by the flash FSM's
turn. -/
def State.atByteRead (s : State) (a : Nat) : Nat → State
  | 0 => s
  | n + 1 => fsmTurn (busArrayRead (a + n) (s.atByteRead a n))

/-- What the first `n` byte reads of a span return. -/
def State.bytesRead (s : State) (a n : Nat) : List Byte :=
  (List.range n).map fun i => (s.atByteRead a i).arrayValue (a + i)

section
variable {s : State}

@[simp] theorem bytesRead_length (a n : Nat) : (s.bytesRead a n).length = n := by simp [State.bytesRead]

theorem bytesRead_succ (a n : Nat) : s.bytesRead a (n + 1) = s.bytesRead a n ++ [(s.atByteRead a n).arrayValue (a + n)] := by
  simp [State.bytesRead, List.range_succ]

@[simp] theorem atByteRead_cfg (a n : Nat) : (s.atByteRead a n).cfg = s.cfg := by
  induction n with
  | zero => rfl
  | succ n ih => simpa [State.atByteRead] using ih

/-- Byte reads of a span inside the array, and the turns between them, stop nothing. -/
theorem busArrayRead_atByteRead_live {a n : Nat} (hin : a + n < s.cfg.arraySize) :
    (busArrayRead (a + n) (s.atByteRead a n)).live = s.live := by
  refine (busArrayRead_live (by rwa [atByteRead_cfg])).trans ?_
  induction n with
  | zero => rfl
  | succ n ih =>
    have hread := busArrayRead_live (s := s.atByteRead a n) (o := a + n) (by rw [atByteRead_cfg]; omega)
    exact (fsmTurn_live _).trans (hread.trans (ih (by omega)))

/-- The answer of READ with byte read number `n + 1`, its last, if the block is `s` at the first (R181, R230). -/
def State.readAnswer (s : State) (a b : Word) (n : Nat) : State :=
  (busArrayRead (a.toNat + n) (s.atByteRead a.toNat n)).respond .ok b (s.bytesRead a.toNat (n + 1))

section
variable {a b : Word} {n m pos : Nat} {phase : Phase} (hlive : s.live = true)
include hlive

/-- Byte read number `n + 1` of READ. -/
theorem stepByteRead_atByteRead (hin : a.toNat + n < s.cfg.arraySize) :
    stepByteRead (byteRun a b pos phase (s.bytesRead a.toNat n))
        ((s.atByteRead a.toNat n).withRun (byteRun a b pos phase (s.bytesRead a.toNat n))) =
      if n + 1 < b.toNat then (busArrayRead (a.toNat + n) (s.atByteRead a.toNat n)).withRun
        (byteRun a b (pos + 1) .byteRead (s.bytesRead a.toNat (n + 1)))
      else s.readAnswer a b n := by
  have hin' : a.toNat + n < (s.atByteRead a.toNat n).cfg.arraySize := by rwa [atByteRead_cfg]
  have hlive' : (s.atByteRead a.toNat n).live = true :=
    (busArrayRead_live hin').symm.trans ((busArrayRead_atByteRead_live hin).trans hlive)
  rw [stepByteRead_byteRun hlive' (congrArg _ (bytesRead_length _ n)) hin', bytesRead_length, ← bytesRead_succ]
  rfl

variable (hin : a.toNat + b.toNat ≤ s.cfg.arraySize)
include hin

/-- From byte read number `n + 1` on, READ goes through the `m` reads after it to its answer (R230). -/
theorem runSequencer_byteReads {k : Nat} {t : State} (hb : b.toNat = n + m + 1) (hk : m ≤ k)
    (ht : sequencerTurn t = stepByteRead (byteRun a b pos phase (s.bytesRead a.toNat n))
      ((s.atByteRead a.toNat n).withRun (byteRun a b pos phase (s.bytesRead a.toNat n)))) :
    runSequencer k t = s.readAnswer a b (n + m) := by
  induction m generalizing n k pos phase t with
  | zero =>
    rw [stepByteRead_atByteRead hlive (by omega), if_neg (by omega)] at ht
    rw [runSequencer_of_not_sequencing (sequencing_of_idle (ht ▸ rfl)), ht]
    rfl
  | succ m ih =>
    obtain ⟨k, rfl⟩ := Nat.exists_eq_add_of_le' (show 1 ≤ k by omega)
    rw [stepByteRead_atByteRead hlive (by omega), if_pos (by omega)] at ht
    have hgoes : (sequencerTurn t).sequencing = true := ht ▸ (busArrayRead_atByteRead_live (by omega)).trans hlive
    rw [runSequencer_succ_of_sequencing hgoes, ht, fsmTurn_withRun, ← Nat.add_assoc n m 1, Nat.add_right_comm n m 1]
    exact ih (n := n + 1) (k := k) (phase := .byteRead) (by omega) (by omega) rfl

end

/-! ### The run of READ -/

/-- The block at the first byte read of READ: after the fuse read, if the capacity is not cached, the flash FSM has its turn
(R155, R174). -/
def State.atFirstByteRead (s : State) : State := if s.chipSizeCache = 0 then fsmTurn s.discovered else s

theorem discovered_live : s.discovered.live = s.live := by
  obtain ⟨cache, es, hdiscovered⟩ := exists_discovered_eq s
  rw [hdiscovered]
  rfl

theorem atFirstByteRead_live : s.atFirstByteRead.live = s.live := by
  unfold State.atFirstByteRead
  split
  · exact (fsmTurn_live _).trans discovered_live
  · rfl

theorem atFirstByteRead_cfg : s.atFirstByteRead.cfg = s.cfg := by
  unfold State.atFirstByteRead
  split
  · exact (fsmTurn_cfg _).trans (discovered_cfg s)
  · rfl

section
variable {a b : Word} {n : Nat}

/-- The checks of READ find that byte reads follow (R230, R241). -/
theorem readChecks_of_span (hb : b.toNat ≠ 0) (hin : a.toNat + b.toNat ≤ s.capacity) :
    readChecks s.discovered.chipSizeCache a b true = .byteReads := by
  have hne : b ≠ 0 := fun h => hb (by simp [h])
  rw [readChecks, discovered_chipSizeCache_toNat_eq_capacity, inRange_of_le hb hin, if_pos rfl, if_neg hne]
  rfl

/-- The run of READ: the fuse read, if the capacity is not cached, and the byte reads (R174, R230). -/
theorem runSequencer_accept_read (hlive : s.live = true) (hb : b.toNat = n + 1) (hin : a.toNat + b.toNat ≤ s.cfg.arraySize)
    (hchecked : readChecks s.discovered.chipSizeCache a b true = .byteReads) :
    runSequencer (b.toNat + 2) (s.accept (.read a b true)) = s.atFirstByteRead.readAnswer a b n := by
  have hlive' := atFirstByteRead_live.trans hlive
  have hin' : a.toNat + b.toNat ≤ s.atFirstByteRead.cfg.arraySize := by rwa [atFirstByteRead_cfg]
  rw [← Nat.zero_add n] at hb ⊢
  by_cases hcache : s.chipSizeCache = 0
  · have hturn : sequencerTurn (s.accept (.read a b true)) = s.discovered.withRun (byteRun a b 1 .byteRead []) := by
      rw [discovered_of_unknown hcache] at hchecked ⊢
      exact (stepDiscover_of_unknown (s := s.accept (.read a b true)) hcache).trans
        (stepFuse_goesOn (s := s.accept (.read a b true)) (.inr ⟨hchecked, rfl⟩))
    have hgoes : (sequencerTurn (s.accept (.read a b true))).sequencing = true := hturn ▸ discovered_live.trans hlive
    have hstart : s.atFirstByteRead = fsmTurn s.discovered := if_pos hcache
    rw [runSequencer_succ_of_sequencing hgoes, hturn, fsmTurn_withRun, ← hstart]
    exact runSequencer_byteReads (phase := .byteRead) hlive' hin' hb (by omega) rfl
  · have hstart : s.atFirstByteRead = s := if_neg hcache
    rw [discovered_of_cached hcache] at hchecked
    refine runSequencer_byteReads (pos := 0) (phase := .first) hlive' hin' hb (by omega) ?_
    rw [hstart]
    exact stepDiscover_of_byteReads (s := s.accept (.read a b true)) hcache hchecked

/-- READ of a span inside the array answers OK with what its byte reads return (R230). -/
theorem exec_read_of_span (hready : Ready s) (hcache : s.cacheOk = true) (hb : b.toNat = n + 1)
    (hin : a.toNat + b.toNat ≤ s.cfg.arraySize) :
    exec (.read a b true) s = .next (s.atFirstByteRead.readAnswer a b n) := by
  have hchecked := readChecks_of_span (by omega : b.toNat ≠ 0) (by rwa [capacity_eq_arraySize hcache] : _ ≤ s.capacity)
  have hend : (s.atFirstByteRead.readAnswer a b n).live = true :=
    (busArrayRead_atByteRead_live (by rw [atFirstByteRead_cfg]; omega)).trans (atFirstByteRead_live.trans hready.left)
  rw [exec_of_command s rfl, runCommand_of_ready hready]
  exact (congrArg outcome (runSequencer_accept_read hready.left hb hin hchecked)).trans (outcome_of_live hend)

end

end

end Sys2Proof.Machine
end

section
/-! SUPPORT. What the byte reads of READ return while an operation is in flight, and after its completion step
(45_read_accessors.md R230, 40_register_bus.md R148, R155, log entry 1). -/

namespace Sys2Proof.Machine

section
variable {s : State}

theorem discovered_drawAt (k : Nat) : s.discovered.drawAt k = s.drawAt k := by
  obtain ⟨cache, es, hdiscovered⟩ := exists_discovered_eq s
  rw [hdiscovered]
  rfl

theorem discovered_seq : s.discovered.seq = s.seq := by
  obtain ⟨cache, es, hdiscovered⟩ := exists_discovered_eq s
  rw [hdiscovered]

theorem discovered_op : s.discovered.op = s.op := by
  obtain ⟨cache, es, hdiscovered⟩ := exists_discovered_eq s
  rw [hdiscovered]

/-! ### Before the completion step -/

/-- The completion step does not come before byte read number `n + 1` of READ (the premise on the draws, log entry 1). -/
def State.readWaits (s : State) (n : Nat) : Prop :=
  n + s.discoverDraws ≠ 0 → drawBit (s.drawAt (2 * n + s.discoverDraws - 1)) = false

/-- What byte read number `i + 1` of READ returns while the operation is in flight (R148). -/
def State.drawnByte (s : State) (i : Nat) : Byte := drawByte (s.drawAt (2 * i + s.discoverDraws))

/-- The `HISTORY` entry of that byte read, of a span from `a` on (R58, R148). -/
def State.drawnEvent (s : State) (a i : Nat) : Event :=
  .bus (0x10000000 ||| BitVec.ofNat 32 (a + i)) (a + i) (some ((s.drawnByte i).setWidth 32))

/-- The block after `n` byte reads and `k` draws of READ, with the operation still in flight: the draws and `HISTORY` tell, and
the cache. -/
def State.busyReading (s : State) (a n k : Nat) : State :=
  { s.discovered.afterDraws k with history := s.discovered.history ++ (List.range n).map (s.drawnEvent a) }

theorem busyReading_log (a n k : Nat) : (s.busyReading a n k).log (s.drawnEvent a n) = s.busyReading a (n + 1) k := by
  simp [State.busyReading, State.log, List.range_succ]

theorem busyReading_drawAt (a n k i : Nat) : (s.busyReading a n k).drawAt i = s.drawAt (k + i) :=
  (drawAt_afterDraws s.discovered k i).trans (discovered_drawAt (k + i))

theorem busyReading_op (a n k : Nat) : (s.busyReading a n k).op = s.op := discovered_op

theorem busyReading_live (a n k : Nat) : (s.busyReading a n k).live = s.live := discovered_live

theorem busyReading_afterDraws (a n k i : Nat) : (s.busyReading a n k).afterDraws i = s.busyReading a n (k + i) :=
  congrArg (fun t : State => { t with history := s.discovered.history ++ (List.range n).map (s.drawnEvent a) })
    (afterDraws_afterDraws s.discovered k i)

section
variable {a n : Nat}

/-- Before the completion step, READ's boundary takes one draw (R155). -/
theorem fsmTurn_busyReading {k : Nat} (hlive : s.live = true) (hop : s.op ≠ .none) (hwait : drawBit (s.drawAt k) = false) :
    fsmTurn (s.busyReading a n k) = s.busyReading a n (k + 1) := by
  rw [← busyReading_afterDraws]
  exact fsmTurn_of_wait ((busyReading_live a n k).trans hlive) (by rwa [busyReading_op]) (by rwa [busyReading_drawAt])

/-- Before the completion step, a byte read of READ takes one draw (R148). -/
theorem busArrayRead_busyReading (hop : s.op ≠ .none) (hin : a + n < s.cfg.arraySize) :
    busArrayRead (a + n) (s.busyReading a n (2 * n + s.discoverDraws)) =
      s.busyReading a (n + 1) (2 * n + s.discoverDraws + 1) := by
  have hcfg : (s.busyReading a n (2 * n + s.discoverDraws)).cfg = s.cfg := discovered_cfg s
  have hsize := arraySize_le (c := s.cfg)
  rw [busArrayRead_of_op (by rwa [busyReading_op]) (by rwa [hcfg]), busyReading_drawAt, State.logArrayRead,
    descriptor_byteRead (by omega), ← busyReading_afterDraws a (n + 1) _ 1, ← busyReading_log]
  rfl

/-- The first byte read of READ, with the operation still in flight. -/
theorem atFirstByteRead_of_wait (hlive : s.live = true) (hop : s.op ≠ .none) (hwait : s.readWaits 0) :
    s.atFirstByteRead = s.busyReading a 0 s.discoverDraws := by
  have hstart : s.busyReading a 0 0 = s.discovered := by simp [State.busyReading, State.afterDraws]
  by_cases hcache : s.chipSizeCache = 0
  · have hdraws : s.discoverDraws = 1 := if_pos hcache
    rw [State.readWaits, hdraws] at hwait
    rw [State.atFirstByteRead, if_pos hcache, ← hstart, hdraws]
    exact fsmTurn_busyReading hlive hop (hwait Nat.one_ne_zero)
  · have hdraws : s.discoverDraws = 0 := if_neg hcache
    rw [State.atFirstByteRead, if_neg hcache, hdraws, hstart, discovered_of_cached hcache]

section
variable (hlive : s.live = true) (hop : s.op ≠ .none) (hin : a + n ≤ s.cfg.arraySize)
include hlive hop hin

/-- READ before byte read number `n + 1`, if the completion step has not come by then. -/
theorem atByteRead_of_waits (hwaits : ∀ i ≤ n, s.readWaits i) :
    s.atFirstByteRead.atByteRead a n = s.busyReading a n (2 * n + s.discoverDraws) := by
  induction n with
  | zero =>
    rw [Nat.mul_zero, Nat.zero_add]
    exact atFirstByteRead_of_wait hlive hop (hwaits 0 le_rfl)
  | succ n ih =>
    have hindex : 2 * (n + 1) + s.discoverDraws = 2 * n + s.discoverDraws + 1 + 1 := by omega
    have hwait := hwaits (n + 1) le_rfl (by omega)
    rw [hindex] at hwait ⊢
    rw [State.atByteRead, ih (by omega) fun i hi => hwaits i (by omega), busArrayRead_busyReading hop (by omega)]
    exact fsmTurn_busyReading hlive hop hwait

/-- Before the completion step, each byte read is a draw of its own (R148). -/
theorem bytesRead_of_waits (hwaits : ∀ i < n, s.readWaits i) :
    s.atFirstByteRead.bytesRead a n = (List.range n).map s.drawnByte := by
  refine List.map_congr_left fun i hi => ?_
  have hi' : i < n := List.mem_range.mp hi
  rw [atByteRead_of_waits hlive hop (by omega) fun j hj => hwaits j (by omega),
    arrayValue_of_op (by rwa [busyReading_op]), busyReading_drawAt]
  rfl

/-- At the boundary where the completion step happens, the operation ends (R155). -/
theorem atByteRead_op_of_completion (hwaits : ∀ i < n, s.readWaits i) (hn : n + s.discoverDraws ≠ 0)
    (hdraw : drawBit (s.drawAt (2 * n + s.discoverDraws - 1)) = true) :
    (s.atFirstByteRead.atByteRead a n).op = .none := by
  cases n with
  | zero =>
    have hcache : s.chipSizeCache = 0 := by
      by_contra hcache
      exact hn (by rw [State.discoverDraws, if_neg hcache])
    have hstart : s.atFirstByteRead = fsmTurn s.discovered := if_pos hcache
    rw [State.discoverDraws, if_pos hcache] at hdraw
    rw [State.atByteRead, hstart]
    exact fsmTurn_op_of_completion (discovered_live.trans hlive) (by rwa [discovered_op]) (by rwa [discovered_drawAt])
  | succ n =>
    have hindex : 2 * (n + 1) + s.discoverDraws = 2 * n + s.discoverDraws + 1 + 1 := by omega
    rw [hindex] at hdraw
    rw [State.atByteRead, atByteRead_of_waits hlive hop (by omega) fun i hi => hwaits i (by omega),
      busArrayRead_busyReading hop (by omega)]
    exact fsmTurn_op_of_completion ((busyReading_live _ _ _).trans hlive) (by rwa [busyReading_op]) (by rwa [busyReading_drawAt])

end

/-- The answer of READ, if the completion step has not come by its last byte read (R148, R230). -/
theorem readAnswer_of_waits {a b : Word} (hlive : s.live = true) (hop : s.op ≠ .none)
    (hin : a.toNat + (n + 1) ≤ s.cfg.arraySize) (hwaits : ∀ i < n + 1, s.readWaits i) :
    s.atFirstByteRead.readAnswer a b n =
      (s.busyReading a.toNat (n + 1) (2 * n + s.discoverDraws + 1)).respond .ok b
        ((List.range (n + 1)).map s.drawnByte) := by
  rw [State.readAnswer, bytesRead_of_waits hlive hop hin hwaits,
    atByteRead_of_waits hlive hop (by omega) fun i hi => hwaits i (by omega), busArrayRead_busyReading hop (by omega)]

/-! ### After the completion step -/

/-- With no operation in flight, byte reads change neither that nor the array (R147). -/
theorem atByteRead_of_no_op (hop : (s.atByteRead a n).op = .none) (k : Nat) :
    (s.atByteRead a (n + k)).op = .none ∧ (s.atByteRead a (n + k)).array = (s.atByteRead a n).array := by
  induction k with
  | zero => exact ⟨hop, rfl⟩
  | succ k ih =>
    obtain ⟨hop', harray⟩ := ih
    have hidle : (busArrayRead (a + (n + k)) (s.atByteRead a (n + k))).op = .none := (busArrayRead_op _ _).trans hop'
    rw [← Nat.add_assoc, State.atByteRead, fsmTurn_of_no_op hidle]
    exact ⟨hidle, (busArrayRead_array _ _).trans harray⟩

theorem atByteRead_byteAt_of_no_op (hop : (s.atByteRead a n).op = .none) (k o : Nat) :
    (s.atByteRead a (n + k)).byteAt o = (s.atByteRead a n).byteAt o := by
  rw [State.byteAt, State.byteAt, (atByteRead_of_no_op hop k).right, atByteRead_cfg, atByteRead_cfg]

theorem busArrayRead_byteAt (o x : Nat) : (busArrayRead o s).byteAt x = s.byteAt x := by simp [State.byteAt]

theorem respond_byteAt (status : Status) (value : Word) (data : List Byte) (x : Nat) :
    (s.respond status value data).byteAt x = s.byteAt x := rfl

/-- After the completion step, the byte reads return the array's bytes (R147). -/
theorem bytesRead_of_no_op (hop : (s.atByteRead a n).op = .none) (k : Nat) :
    s.bytesRead a (n + k) =
      s.bytesRead a n ++ (List.range k).map fun i => (s.atByteRead a n).byteAt (a + (n + i)) := by
  have hvalue (i : Nat) : (s.atByteRead a (n + i)).arrayValue (a + (n + i)) = (s.atByteRead a n).byteAt (a + (n + i)) := by
    rw [State.arrayValue, (atByteRead_of_no_op hop i).left]
    exact atByteRead_byteAt_of_no_op hop i _
  simp [State.bytesRead, List.range_add, hvalue]

end

end

end Sys2Proof.Machine
end

section
/-! SUPPORT. READ of no byte, and what a quiet block's READ leaves written out (41_sequencer.md R174, R175, 45_read_accessors.md
R230). -/

namespace Sys2Proof.Machine

section
variable {s : State} {r : Run} {response : Response}

theorem stepFuse_of_respond (h : afterDiscover s.cfg (chipSizeOf s.cfg.fuseValue) r.cmd = .respond response) :
    stepFuse r s = (discoverCapacity s).respond response.status response.value response.data := by
  rw [stepFuse, h]

theorem stepDiscover_cached_of_respond (hcache : s.chipSizeCache ≠ 0)
    (h : afterDiscover s.cfg s.chipSizeCache r.cmd = .respond response) :
    stepDiscover r s = s.respond response.status response.value response.data := by
  rw [stepDiscover, if_neg hcache, h]

/-- A command that its checks after discovery end responds in its first step (R174, R175). -/
theorem stepDiscover_of_respond {c : Command} (h : afterDiscover s.cfg s.discovered.chipSizeCache c = .respond response) :
    stepDiscover (startRun c 0 .first) (s.accept c) =
      s.discovered.respond response.status response.value response.data := by
  by_cases hcache : s.chipSizeCache = 0
  · rw [discovered_of_unknown hcache] at h ⊢
    exact (stepDiscover_of_unknown (s := s.accept c) hcache).trans (stepFuse_of_respond (s := s.accept c) h)
  · rw [discovered_of_cached hcache] at h ⊢
    exact stepDiscover_cached_of_respond (s := s.accept c) hcache h

end

/-- READ of no byte at an offset inside the array answers OK once the capacity is discovered (R175, R230). -/
theorem exec_read_zero {s : State} {a : Word} (hready : Ready s) (ha : a.toNat < s.capacity) :
    exec (.read a 0 true) s = .next (s.discovered.respond .ok 0 []) := by
  have hchecked : readChecks s.discovered.chipSizeCache a 0 true = .respond ⟨.ok, 0, []⟩ := by
    rw [readChecks, inRange_discovered ha (by simpa using ha.le)]
    rfl
  have hturn : sequencerTurn (s.accept (.read a 0 true)) = s.discovered.respond .ok 0 [] :=
    stepDiscover_of_respond (c := .read a 0 true) hchecked
  exact exec_of_one_step rfl hready hturn rfl (discovered_live.trans hready.left)

/-- The byte reads of a span inside the array, their entries written out (R110). -/
theorem readEvents_discovered {s : State} {a n : Nat} (hin : a + n ≤ s.cfg.arraySize) :
    s.discovered.readEvents a n = (List.range n).map fun i =>
      .bus (0x10000000 ||| BitVec.ofNat 32 (a + i)) (a + i) (some ((s.byteAt (a + i)).setWidth 32)) := by
  have hsize := arraySize_le (c := s.cfg)
  obtain ⟨cache, es, hdiscovered⟩ := exists_discovered_eq s
  refine List.map_congr_left fun i hi => ?_
  have hi' : i < n := List.mem_range.mp hi
  rw [State.readEvent, descriptor_byteRead (by omega), hdiscovered]
  rfl

theorem respond_of_idle {s : State} (hidle : s.seq = .idle) (status : Status) (value : Word) (data : List Byte) :
    s.respond status value data = { s with resp := some ⟨status, value, data⟩ } := by
  rw [State.respond, ← hidle]

end Sys2Proof.Machine
end

section
/-! PROOFS. READ, PAGESIZE and CHIPSIZE (45_read_accessors.md R230 to R232). -/

namespace Sys2Proof.Machine

/-- Settles O42: either command responds in its first step, without a transaction. -/
theorem accessorsAnswer : Obligations.AccessorsAnswer := by
  unfold Obligations.AccessorsAnswer
  intro s hready
  obtain ⟨hlive, hidle⟩ := id hready
  simp only [← respond_of_idle hidle]
  exact ⟨exec_of_one_step rfl hready rfl rfl hlive, exec_of_one_step rfl hready rfl rfl hlive⟩

/-- Settles O43: with no operation in flight every byte read returns the stored byte; with one, each byte read before the
completion step returns a draw, and each after it the stored byte. -/
theorem readCopiesArray : Obligations.ReadCopiesArray := by
  unfold Obligations.ReadCopiesArray
  refine ⟨fun s a b hquiet hcache ha hin => ?_, fun s a b hready hop hcache hb hin hwaits => ?_,
    fun s a b m hready hop hcache hin hm hboundary hwaits hdraw => ?_⟩
  · have hidle : s.discovered.seq = .idle := discovered_seq.trans hquiet.left.right
    rw [capacity_eq_arraySize hcache] at hin
    obtain rfl | hb := eq_or_ne b 0
    · rw [exec_read_zero hquiet.left ha, respond_of_idle hidle]
      simp
    · have hcount : b.toNat ≠ 0 := fun h => hb (BitVec.eq_of_toNat_eq h)
      rw [exec_read_of_quiet hquiet hcache hcount hin,
        respond_of_idle (s := s.discovered.afterReads a.toNat b.toNat) hidle, State.afterReads, readEvents_discovered hin]
      rfl
  · obtain ⟨n, hn⟩ := Nat.exists_eq_succ_of_ne_zero fun h => hb (BitVec.eq_of_toNat_eq h)
    have hlast : 2 * b.toNat - 1 + s.discoverDraws = 2 * n + s.discoverDraws + 1 := by omega
    have hidle : (s.busyReading a.toNat (n + 1) (2 * n + s.discoverDraws + 1)).seq = .idle :=
      discovered_seq.trans hready.right
    rw [capacity_eq_arraySize hcache] at hin
    rw [exec_read_of_span hready hcache hn hin,
      readAnswer_of_waits hready.left hop (by omega) fun i hi => hwaits i (by omega), respond_of_idle hidle, hlast, hn]
    rfl
  · obtain ⟨k, hk⟩ := Nat.exists_eq_add_of_lt hm
    rw [capacity_eq_arraySize hcache] at hin
    have hidle := atByteRead_op_of_completion hready.left hop (by omega : a.toNat + m ≤ _) hwaits hboundary hdraw
    have hbytes := bytesRead_of_no_op hidle (k + 1)
    rw [bytesRead_of_waits hready.left hop (by omega) hwaits] at hbytes
    refine ⟨_, exec_read_of_span hready hcache hk hin, rfl,
      (busArrayRead_op _ _).trans (atByteRead_of_no_op hidle k).left, ?_⟩
    have hrest : b.toNat - m = k + 1 := by omega
    simp only [hrest, State.readAnswer, respond_byteAt, busArrayRead_byteAt, atByteRead_byteAt_of_no_op hidle]
    exact congrArg (fun bytes => some (Response.mk .ok b bytes)) hbytes

end Sys2Proof.Machine
end

section
/-! SUPPORT. A command that its checks after discovery refuse (41_sequencer.md R175, 60_exceptions.md R241). -/

namespace Sys2Proof.Machine

section
variable {s : State}

/-- The range check reads the discovered capacity (R174, R180). -/
theorem inRange_discovered_of_outside {o len : Nat} (h : ¬ (o < s.capacity ∧ o + len ≤ s.capacity)) :
    ¬ inRange s.discovered.chipSizeCache.toNat o len = true := by
  simpa [inRange, discovered_chipSizeCache_toNat_eq_capacity] using h

/-- A command whose checks after discovery find an argument error answers in its first step, with the capacity discovered and
nothing else changed (R175, R241). -/
theorem exec_of_invalid {i : Instr} {c : Command} (hi : commandOf i = some c) (hready : Ready s)
    (hfirst : sequencerTurn (s.accept c) = stepDiscover (startRun c 0 .first) (s.accept c))
    (hchecked : afterDiscover s.cfg s.discovered.chipSizeCache c = .invalid) :
    exec i s = .next { s.discovered with resp := some ⟨.invalidArgument, 0, []⟩ } := by
  obtain ⟨hlive, hidle⟩ := id hready
  have hturn : sequencerTurn (s.accept c) = s.discovered.respond .invalidArgument 0 [] :=
    hfirst.trans (stepDiscover_of_respond hchecked)
  rw [← respond_of_idle (discovered_seq.trans hidle)]
  exact exec_of_one_step hi hready hturn rfl (discovered_live.trans hlive)

end

end Sys2Proof.Machine
end

section
/-! PROOFS. The argument errors of ERASE, WRITE and READ (60_exceptions.md R241). -/

namespace Sys2Proof.Machine

/-- Settles O44: each argument error is found by the checks after discovery. -/
theorem argumentErrorsChangeNothing : Obligations.ArgumentErrorsChangeNothing := by
  unfold Obligations.ArgumentErrorsChangeNothing
  intro s hready
  refine ⟨fun a b hrange => ?_, fun a => ?_, fun a d herror => ?_, fun a b buffer herror => ?_⟩
  · have hchecked : eraseChecks s.cfg s.discovered.chipSizeCache a b = .invalid :=
      if_neg (inRange_discovered_of_outside hrange)
    exact exec_of_invalid rfl hready rfl hchecked
  · exact exec_of_invalid rfl hready rfl rfl
  · have hchecked : writeChecks s.cfg s.discovered.chipSizeCache a (some d) = .invalid := by
      obtain halign | hrange := herror
      · exact if_pos halign
      · exact (congrArg _ (if_neg (inRange_discovered_of_outside hrange))).trans (ite_self _)
    exact exec_of_invalid rfl hready rfl hchecked
  · have hchecked : readChecks s.discovered.chipSizeCache a b buffer = .invalid := by
      obtain hbuffer | hrange := herror
      · exact if_pos hbuffer
      · exact (congrArg _ (if_neg (inRange_discovered_of_outside hrange))).trans (ite_self _)
    exact exec_of_invalid rfl hready rfl hchecked

end Sys2Proof.Machine
end

section
/-! SUPPORT. The steps of a run past a command's checks, by the operations they are made of (41_sequencer.md R172, R175, R179). -/

namespace Sys2Proof.Machine

/-- The transaction comes after the command's checks, and is no key write of UNLOCK (R175, R179, R201). -/
def Phase.followsChecks : Phase → Bool
  | .first | .busy | .secondKey => false
  | _ => true

/-- The command is not a WRITE of absent data (R220). -/
def Command.HasData (cmd : Command) : Prop := ∀ a, cmd ≠ .write a none

/-- The operations of the transactions past the checks. -/
inductive WorkOperation : (State → State) → Prop where
  | srRead : WorkOperation busSrRead
  | srWrite (v : Word) : WorkOperation (busSrWrite v)
  | crRead : WorkOperation busCrRead
  | crWrite (v : Word) : WorkOperation (busCrWrite v)
  | arrayRead (o : Nat) : WorkOperation (busArrayRead o)
  | arrayWrite (o : Nat) (w : Word) : WorkOperation (busArrayWrite o w)

/-- After the transactions of a step of run `r` led to `s`, the command ends, with an argument error only if its data are absent,
or goes on to a transaction past the checks. -/
inductive EndsOrWorksOn (r : Run) (s : State) : State → Prop where
  | ends (status : Status) (value : Word) (data : List Byte) (hvalid : r.cmd.HasData → status ≠ .invalidArgument) :
      EndsOrWorksOn r s (s.respond status value data)
  | goesOn (phase : Phase) (regs : Regs) (hphase : phase.followsChecks = true) : EndsOrWorksOn r s (s.goto r phase regs)

/-- What a step past the checks comes to: the machine stops, or one of the operations is performed, after the pad bytes of a WRITE
are drawn, and the command ends or goes on. -/
inductive WorkStep (r : Run) (s : State) : State → Prop where
  | stops (t : State) (hlive : t.live = false) : WorkStep r s t
  | performs {f : State → State} (hf : WorkOperation f) (n : Nat) (t : State)
      (ht : EndsOrWorksOn r (f (s.afterDraws n)) t) : WorkStep r s t

section
variable {r : Run} {s : State}

theorem firstUnit_endsOrWorksOn : EndsOrWorksOn r s (firstUnit r s) := by
  unfold firstUnit
  split
  case h_3 a hcmd => exact .ends _ _ _ fun hdata => absurd hcmd (hdata a)
  all_goals (repeat' split) <;> constructor <;> simp [Phase.followsChecks]

theorem nextUnit_endsOrWorksOn : EndsOrWorksOn r s (nextUnit r s) := by
  unfold nextUnit
  split
  · exact .ends _ _ _ fun _ => nofun
  · split
    case h_3 a hcmd => exact .ends _ _ _ fun hdata => absurd hcmd (hdata a)
    all_goals (repeat' split) <;> constructor <;> simp [Phase.followsChecks]

theorem enterPoll_endsOrWorksOn : EndsOrWorksOn r s (enterPoll r s) := by
  unfold enterPoll
  split
  · exact .goesOn _ _ rfl
  · exact .goesOn _ _ rfl

theorem afterModeWrite_endsOrWorksOn : EndsOrWorksOn r s (afterModeWrite r s) := by
  unfold afterModeWrite
  split
  case h_1 => exact .goesOn _ _ rfl
  all_goals exact enterPoll_endsOrWorksOn

/-- A transaction with no draw before it. -/
theorem workStep_of_transaction {f : State → State} (hf : WorkOperation f) {t : State} (ht : EndsOrWorksOn r (f s) t) :
    WorkStep r s t := .performs hf 0 t (by rwa [afterDraws_zero])

/-- A transaction after which the command goes on only if nothing was recorded (R182). -/
theorem workStep_andThen {f k : State → State} (hf : WorkOperation f) (hk : EndsOrWorksOn r (f s) (k (f s))) :
    WorkStep r s ((f s).andThen k) := by
  unfold State.andThen
  split
  case isTrue => exact workStep_of_transaction hf hk
  case isFalse hstopped => exact .stops _ (by simpa using hstopped)

theorem stepClearBefore_workStep (unit : Nat) : WorkStep r s (stepClearBefore unit r s) := by
  unfold stepClearBefore
  split
  case h_1 =>
    split
    · exact .stops _ (refuse_live _ _)
    · exact workStep_of_transaction (.srWrite _) (.goesOn _ _ rfl)
  case h_2 => exact .performs (.srWrite _) _ _ (.goesOn _ _ rfl)
  all_goals exact workStep_of_transaction (.srWrite _) (.goesOn _ _ rfl)

theorem stepPoll_workStep (k : Nat) : WorkStep r s (stepPoll k r s) := by
  unfold stepPoll
  split
  · exact workStep_of_transaction .srRead (.goesOn _ _ rfl)
  · exact workStep_of_transaction .srRead (.goesOn _ _ rfl)

theorem stepByteRead_workStep : WorkStep r s (stepByteRead r s) := by
  refine workStep_andThen (.arrayRead _) ?_
  dsimp only
  split
  · exact .goesOn _ _ rfl
  · exact .ends _ _ _ fun _ => nofun

theorem sequencerStep_workStep (hphase : r.phase.followsChecks = true) : WorkStep r s (sequencerStep r s) := by
  obtain ⟨cmd, pos, phase, g⟩ := r
  cases phase with
  | first | busy | secondKey => cases hphase
  | clearBefore unit => exact stepClearBefore_workStep unit
  | modeRead | cleanupRead => exact workStep_of_transaction .crRead (.goesOn _ _ rfl)
  | modeWrite => exact workStep_andThen (.crWrite _) afterModeWrite_endsOrWorksOn
  | lowWord => exact workStep_andThen (.arrayWrite _ _) (.goesOn _ _ rfl)
  | highWord => exact workStep_andThen (.arrayWrite _ _) enterPoll_endsOrWorksOn
  | poll k => exact stepPoll_workStep k
  | clearAfter => exact workStep_of_transaction (.srWrite _) (.goesOn _ _ rfl)
  | cleanupWrite => exact workStep_andThen (.crWrite _) nextUnit_endsOrWorksOn
  | lockWrite => exact workStep_andThen (.crWrite _) (.ends _ _ _ fun _ => nofun)
  | byteRead => exact stepByteRead_workStep

end

/-! ### From a run to its instruction -/

/-- What a command's steps lead to, the command leads to. -/
theorem exec_leads {J : Run → State → Prop} {Q : State → Prop} {i : Instr} {c : Command} {s t : State}
    (hi : commandOf i = some c) (hstep : ∀ r u, J r u → Leads J Q (sequencerStep r u))
    (hfsm : ∀ r u, J r u → J r (fsmTurn u)) (hstart : J (startRun c 0 .first) (s.accept c)) (ht : exec i s = .next t) :
    Q t := by
  rw [exec_of_command s hi] at ht
  obtain ⟨-, -, hlive, rfl⟩ := runCommand_eq_next_iff.mp ht
  have hrun := runSequencer_leads (J := fun _ => J) (fun _ => hstep) (fun _ => hfsm) (commandBound s.cfg c) rfl hstart
  cases hrun with
  | stops hdead => simp [hdead] at hlive
  | ends _ hQ => exact hQ
  | goesOn r hseq _ =>
    have hover := (runSequencer_ends c s).not_sequencing
    simp [State.sequencing, hseq, hlive] at hover

end Sys2Proof.Machine
end

section
/-! SUPPORT. What a locked block holds (40_register_bus.md R135, R152, R153, 60_exceptions.md R251). -/

namespace Sys2Proof.Machine

/-- The fields that only CR, KEYR and the latch of a program change (R136, R142, R150). -/
def State.controls (s : State) := (s.pg, s.per, s.pnb, s.lock, s.keyStage, s.latch)

theorem controls_eq_iff {s t : State} :
    t.controls = s.controls ↔ t.pg = s.pg ∧ t.per = s.per ∧ t.pnb = s.pnb ∧ t.lock = s.lock ∧ t.keyStage = s.keyStage ∧
      t.latch = s.latch := by
  simp [State.controls]

/-- What does not change while the block is locked and no operation is in flight. -/
def State.held (s : State) := (s.cfg, s.array, s.op, s.aborted, s.controls)

theorem held_eq_iff {s t : State} :
    t.held = s.held ↔ t.cfg = s.cfg ∧ t.array = s.array ∧ t.op = s.op ∧ t.aborted = s.aborted ∧ t.controls = s.controls := by
  simp [State.held]

section
variable {s s₀ : State}

/-- A locked block starts no program and latches no word: an array write is refused, faults, or draws the flags (R152, R153). -/
theorem busArrayWrite_held (hlock : s.lock = true) (o : Nat) (w : Word) : (busArrayWrite o w s).held = s.held := by
  unfold busArrayWrite
  obtain ⟨h, -⟩ | ⟨-, ⟨h, -⟩ | ⟨-, ⟨h, -⟩ | ⟨⟨hunlocked, -⟩, -⟩⟩⟩ := arrayWriteEffect_cases o w (s.logArrayWrite o w)
  · rw [h]
    rfl
  · rw [h]
    simp [State.held, State.controls]
  · rw [h]
    rfl
  · simp [hlock] at hunlocked

/-- Past the checks no operation changes what a locked block holds. -/
theorem WorkOperation.held {f : State → State} (hf : WorkOperation f) (hlock : s.lock = true) : (f s).held = s.held := by
  cases hf with
  | srRead | srWrite _ | crRead => rfl
  | crWrite v =>
    rw [busCrWrite_of_locked hlock]
    rfl
  | arrayRead o => simp [State.held, State.controls]
  | arrayWrite o w => exact busArrayWrite_held hlock o w

/-- In a run of a command other than UNLOCK the block holds what it held. -/
def HeldInRun (s₀ : State) (r : Run) (s : State) : Prop :=
  s.held = s₀.held ∧ r.cmd ≠ .unlock ∧ r.phase ≠ .secondKey

/-- A step leads to a state that holds what `s₀` held. -/
abbrev LeadsHeld (s₀ : State) (t : State) : Prop := Leads (HeldInRun s₀) (fun t => t.held = s₀.held) t

section
variable {r : Run} (hheld : s.held = s₀.held) (hcmd : r.cmd ≠ .unlock)
include hheld hcmd

theorem EndsOrWorksOn.leadsHeld {t : State} (ht : EndsOrWorksOn r s t) : LeadsHeld s₀ t := by
  cases ht with
  | ends _ _ _ _ => exact .ends rfl hheld
  | goesOn phase _ hphase => exact .goesOn _ rfl ⟨hheld, hcmd, fun h => by cases h; cases hphase⟩

theorem stepBusy_leadsHeld : LeadsHeld s₀ (stepBusy r s) := by
  unfold stepBusy
  split
  · exact .ends rfl hheld
  · exact firstUnit_endsOrWorksOn.leadsHeld (s := busSrRead s) hheld (by simpa [Run.withStatus] using hcmd)

variable (hlock : s₀.lock = true)
include hlock

theorem WorkStep.leadsHeld {t : State} (ht : WorkStep r s t) : LeadsHeld s₀ t := by
  obtain ⟨-, -, -, -, hcontrols⟩ := held_eq_iff.mp hheld
  obtain ⟨-, -, -, hlock', -, -⟩ := controls_eq_iff.mp hcontrols
  cases ht with
  | stops _ hlive => exact .stops hlive
  | performs hf n _ hend =>
    exact hend.leadsHeld ((hf.held (s := s.afterDraws n) (hlock'.trans hlock)).trans hheld) hcmd

theorem stepFirst_leadsHeld : LeadsHeld s₀ (stepFirst r s) := by
  have hdiscover : LeadsHeld s₀ (stepDiscover r s) := by
    refine leads_stepDiscover ?_ (fun _ _ => ⟨?_, stepBusy_leadsHeld hheld hcmd⟩) (fun _ _ => ⟨?_, ?_⟩)
    · rintro t status value data (rfl | rfl)
      · exact .ends rfl hheld
      · exact .ends rfl hheld
    · exact .goesOn _ rfl ⟨hheld, hcmd, nofun⟩
    · exact .goesOn _ rfl ⟨hheld, hcmd, nofun⟩
    · exact stepByteRead_workStep.leadsHeld hheld hcmd hlock
  unfold stepFirst
  split
  case h_5 h => exact absurd h hcmd
  case h_6 => exact .goesOn _ rfl ⟨hheld, hcmd, nofun⟩
  case h_7 => exact .ends rfl hheld
  case h_8 => exact .ends rfl hheld
  all_goals exact hdiscover

end

/-- Each step of a command other than UNLOCK, given to a locked block, leaves what the block holds. -/
theorem heldInRun_step (hlock : s₀.lock = true) (r : Run) (s : State) (h : HeldInRun s₀ r s) :
    LeadsHeld s₀ (sequencerStep r s) := by
  obtain ⟨cmd, pos, phase, g⟩ := r
  obtain ⟨hheld, hcmd, hphase⟩ := h
  cases phase with
  | first => exact stepFirst_leadsHeld hheld hcmd hlock
  | busy => exact stepBusy_leadsHeld hheld hcmd
  | secondKey => exact absurd rfl hphase
  | _ => exact (sequencerStep_workStep rfl).leadsHeld hheld hcmd hlock

/-- With no operation in flight the flash FSM has no turn (R155). -/
theorem heldInRun_fsmTurn (hop : s₀.op = .none) (r : Run) (s : State) (h : HeldInRun s₀ r s) : HeldInRun s₀ r (fsmTurn s) := by
  obtain ⟨-, -, hop', -, -⟩ := held_eq_iff.mp h.left
  rwa [fsmTurn_of_no_op (hop'.trans hop)]

end

end Sys2Proof.Machine
end

section
/-! PROOFS. The lock gates every command but UNLOCK (60_exceptions.md R251). -/

namespace Sys2Proof.Machine

/-- Settles O52: each step of the run leaves what the locked block holds. -/
theorem lockedCommandsChangeNothing : Obligations.LockedCommandsChangeNothing := by
  unfold Obligations.LockedCommandsChangeNothing
  rintro i c s t hi hcmd ⟨-, hop⟩ hlock ht
  have hheld := exec_leads hi (heldInRun_step hlock) (heldInRun_fsmTurn hop) ⟨rfl, hcmd, nofun⟩ ht
  obtain ⟨hcfg, harray, hop', haborted, hcontrols⟩ := held_eq_iff.mp hheld
  obtain ⟨hpg, hper, hpnb, hlock', hkeyStage, hlatch⟩ := controls_eq_iff.mp hcontrols
  have hbyte (o : Nat) : t.byteAt o = s.byteAt o := by simp [State.byteAt, hcfg, harray]
  exact ⟨harray, hbyte, hop'.trans hop, haborted, hlock'.trans hlock, hpg, hper, hpnb, hkeyStage, hlatch⟩

end Sys2Proof.Machine
end

section
/-! SUPPORT. What a command does before its first write: it reads (41_sequencer.md R174, R179, 60_exceptions.md R244). -/

namespace Sys2Proof.Machine

/-- From `s` to `t` the block was only read, and at most its operation completed: no write transaction was made, the control
fields are as they were, and with no operation in flight so are the array and the flags. -/
def OnlyRead (s t : State) : Prop :=
  t.controls = s.controls ∧ (s.op = .none → t.array = s.array ∧ t.flags = s.flags ∧ t.op = .none) ∧
    ∃ es, t.history = s.history ++ es ∧ ∀ e ∈ es, e.isWrite = false

section
variable {s t u s₀ : State}

theorem onlyRead_refl (s : State) : OnlyRead s s := ⟨rfl, fun hop => ⟨rfl, rfl, hop⟩, [], by simp, by simp⟩

theorem OnlyRead.trans (h : OnlyRead s t) (h' : OnlyRead t u) : OnlyRead s u := by
  obtain ⟨hcontrols, hidle, es, hhistory, hreads⟩ := h
  obtain ⟨hcontrols', hidle', es', hhistory', hreads'⟩ := h'
  refine ⟨hcontrols'.trans hcontrols, fun hop => ?_, es ++ es', ?_, ?_⟩
  · obtain ⟨harray, hflags, hop'⟩ := hidle hop
    obtain ⟨harray', hflags', hop''⟩ := hidle' hop'
    exact ⟨harray'.trans harray, hflags'.trans hflags, hop''⟩
  · rw [hhistory', hhistory, List.append_assoc]
  · exact List.forall_mem_append.mpr ⟨hreads, hreads'⟩

/-- The flash FSM's turn is no transaction (R155, R161). -/
theorem onlyRead_fsmTurn (s : State) : OnlyRead s (fsmTurn s) := by
  refine ⟨by simp [State.controls], fun hop => ?_, s.turnEvents, fsmTurn_history s, ?_⟩
  · rw [fsmTurn_of_no_op hop]
    exact ⟨rfl, rfl, hop⟩
  · unfold State.turnEvents
    split <;> simp [Event.isWrite]

theorem onlyRead_busSrRead (s : State) : OnlyRead s (busSrRead s) :=
  ⟨rfl, fun hop => ⟨rfl, rfl, hop⟩, _, rfl, by simp [Event.isWrite, registerDescriptor]⟩

theorem onlyRead_discoverCapacity (s : State) : OnlyRead s (discoverCapacity s) :=
  ⟨rfl, fun hop => ⟨rfl, rfl, hop⟩, _, rfl, by simp [Event.isWrite]⟩

/-! ### Argument errors along a run -/

/-- Up to the busy check of a run the block has only been read since `s₀`; past discovery the command is no WRITE of absent data,
so that it can end with an argument error no more once its units are begun. -/
def ReadSoFar (s₀ : State) (r : Run) (s : State) : Prop :=
  match r.phase with
  | .first => OnlyRead s₀ s
  | .busy => OnlyRead s₀ s ∧ r.cmd.HasData
  | _ => r.cmd.HasData

/-- The command ended with an argument error only if the block has only been read since `s₀`. -/
def ErrorOnlyRead (s₀ t : State) : Prop := t.resp = some ⟨.invalidArgument, 0, []⟩ → OnlyRead s₀ t

theorem errorOnlyRead_respond {status : Status} (hstatus : status ≠ .invalidArgument) (value : Word) (data : List Byte) :
    ErrorOnlyRead s₀ (s.respond status value data) := by
  simp [ErrorOnlyRead, hstatus]

section
variable {r : Run}

theorem readSoFar_of_followsChecks (hphase : r.phase.followsChecks = true) (hdata : r.cmd.HasData) : ReadSoFar s₀ r s := by
  obtain ⟨cmd, pos, phase, g⟩ := r
  cases phase with
  | first | busy => cases hphase
  | _ => exact hdata

theorem EndsOrWorksOn.leadsReadSoFar (h : EndsOrWorksOn r s t) (hdata : r.cmd.HasData) :
    Leads (ReadSoFar s₀) (ErrorOnlyRead s₀) t := by
  cases h with
  | ends _ _ _ hvalid => exact .ends rfl (errorOnlyRead_respond (hvalid hdata) _ _)
  | goesOn _ _ hphase => exact .goesOn _ rfl (readSoFar_of_followsChecks hphase hdata)

theorem WorkStep.leadsReadSoFar (h : WorkStep r s t) (hdata : r.cmd.HasData) :
    Leads (ReadSoFar s₀) (ErrorOnlyRead s₀) t := by
  cases h with
  | stops _ hlive => exact .stops hlive
  | performs _ _ _ hend => exact hend.leadsReadSoFar hdata

theorem hasData_of_ne_invalid {c : Config} {cache : Word} {cmd : Command} (h : afterDiscover c cache cmd ≠ .invalid) :
    cmd.HasData := by
  rintro a rfl
  exact h rfl

theorem stepBusy_leadsReadSoFar (hread : OnlyRead s₀ s) (hdata : r.cmd.HasData) :
    Leads (ReadSoFar s₀) (ErrorOnlyRead s₀) (stepBusy r s) := by
  unfold stepBusy
  split
  · exact .ends rfl fun _ => hread.trans (onlyRead_busSrRead s)
  · exact firstUnit_endsOrWorksOn.leadsReadSoFar (by simpa [Run.withStatus] using hdata)

theorem stepFirst_leadsReadSoFar (hread : OnlyRead s₀ s) : Leads (ReadSoFar s₀) (ErrorOnlyRead s₀) (stepFirst r s) := by
  have hfuse : OnlyRead s₀ (discoverCapacity s) := hread.trans (onlyRead_discoverCapacity s)
  have hdiscover : Leads (ReadSoFar s₀) (ErrorOnlyRead s₀) (stepDiscover r s) := by
    refine leads_stepDiscover ?_ (fun cache hchecked => ?_) (fun cache hchecked => ?_)
    · rintro t status value data (rfl | rfl)
      · exact .ends rfl fun _ => hread
      · exact .ends rfl fun _ => hfuse
    · have hdata : r.cmd.HasData := hasData_of_ne_invalid (hchecked.trans_ne nofun)
      exact ⟨.goesOn _ rfl ⟨hfuse, hdata⟩, stepBusy_leadsReadSoFar hread hdata⟩
    · have hdata : r.cmd.HasData := hasData_of_ne_invalid (hchecked.trans_ne nofun)
      exact ⟨.goesOn _ rfl hdata, stepByteRead_workStep.leadsReadSoFar hdata⟩
  unfold stepFirst
  split
  case h_5 h => exact .goesOn _ rfl fun a => by simp [h]
  case h_6 h => exact .goesOn _ rfl fun a => by simp [h]
  case h_7 => exact .ends rfl fun _ => hread
  case h_8 => exact .ends rfl fun _ => hread
  all_goals exact hdiscover

end

/-- Each step of a command leaves the block only read, or ends or goes on past the checks, where no argument is found wrong. -/
theorem readSoFar_step (r : Run) (s : State) (h : ReadSoFar s₀ r s) :
    Leads (ReadSoFar s₀) (ErrorOnlyRead s₀) (sequencerStep r s) := by
  obtain ⟨cmd, pos, phase, g⟩ := r
  cases phase with
  | first => exact stepFirst_leadsReadSoFar h
  | busy =>
    obtain ⟨hread, hdata⟩ := h
    exact stepBusy_leadsReadSoFar hread hdata
  | secondKey => exact .ends rfl (errorOnlyRead_respond (status := .ok) nofun _ _)
  | _ => exact (sequencerStep_workStep rfl).leadsReadSoFar h

theorem readSoFar_fsmTurn (r : Run) (s : State) (h : ReadSoFar s₀ r s) : ReadSoFar s₀ r (fsmTurn s) := by
  obtain ⟨cmd, pos, phase, g⟩ := r
  cases phase with
  | first => exact OnlyRead.trans h (onlyRead_fsmTurn s)
  | busy =>
    obtain ⟨hread, hdata⟩ := h
    exact ⟨hread.trans (onlyRead_fsmTurn s), hdata⟩
  | _ => exact h

end

end Sys2Proof.Machine
end

section
/-! PROOFS. INVALID_ARGUMENT comes before the first write (60_exceptions.md R244). -/

namespace Sys2Proof.Machine

/-- Settles O55: a command that answers INVALID_ARGUMENT has come no further than its busy check, and so has only read. -/
theorem invalidArgumentWritesNothing : Obligations.InvalidArgumentWritesNothing := by
  unfold Obligations.InvalidArgumentWritesNothing
  intro i c s t hi _ ht hresp
  have hread : OnlyRead s t := exec_leads hi readSoFar_step readSoFar_fsmTurn (onlyRead_refl s) ht hresp
  obtain ⟨hcontrols, hidle, hhistory⟩ := hread
  obtain ⟨hpg, hper, hpnb, hlock, hkeyStage, hlatch⟩ := controls_eq_iff.mp hcontrols
  exact ⟨hpg, hper, hpnb, hlock, hkeyStage, hlatch, hidle, hhistory⟩

end Sys2Proof.Machine
end
